-- ==== Sys2Proof/Word.lean ====
section
/-! DEFINITION. The widths of 00_scope.md rule R11: 8-bit opcode, register and data bytes, the 16-bit
delay counter, the 32-bit cursor, offsets and header words, the 2-bit selector A1:A0 of 10_state.md
rule R33. -/
namespace Sys2Proof

/-- An opcode, register, data or bus byte (R11). -/
abbrev Byte := BitVec 8

/-- The delay counter's width (R11). -/
abbrev Half := BitVec 16

/-- The cursor, the offsets and every header field (R11). -/
abbrev Word := BitVec 32

/-- The selector lines A1:A0 (R33). -/
abbrev Sel := BitVec 2

/-- The field `n` of a short wait, `opcode[3:0]` (R64). -/
abbrev Nibble := BitVec 4

end Sys2Proof
end

