-- ==== Sys2Proof/Config.lean ====
section
/-! DEFINITION. What is fixed for one machine: the parameters of 00_scope.md rule R10 as one plain record
(`Params`, a launch input that State carries and no step writes: log entry 1), and the OPEN parameters and
draws (R10, R12) as constants without a body, of which nothing can be proved (log entries 9, 10, 11). -/
namespace Sys2Proof

/-- A chip driver (R6, R10): the single-port FM chip, the dual-port FM chip, the dual PSG. -/
inductive Driver
  | fma | fmb | psg
deriving DecidableEq, Repr

/-- A strobe target of a bus transaction (R16). -/
inductive Target
  | fma | fmb | psgA | psgB
deriving DecidableEq, Repr

/-- A driver port that a register-write command names (R62): FM-A, FM-B port 0, FM-B port 1, PSG. -/
inductive WrPort
  | fma | fmb0 | fmb1 | psg
deriving DecidableEq, Repr

/-- Where a profile's song image comes from (R10). -/
inductive SourceKind
  | memory | file
deriving DecidableEq, Repr

/-- `PROFILE` (R10): the set of wired drivers and the source kind. -/
structure Profile where
  fma : Bool
  fmb : Bool
  psg : Bool
  source : SourceKind
deriving DecidableEq, Repr

/-- `FMA_FIELD` (R10): the header offset of FM-A's clock word, 0x30, 0x50 or 0x54. -/
inductive FmaField
  | at30 | at50 | at54
deriving DecidableEq, Repr

/-- `DATA_BLOCK_MODE` (R10). -/
inductive DataBlockMode
  | noop | skipFull
deriving DecidableEq, Repr

/-- The header fields of 10_state.md rule R35. -/
inductive HdrField
  | eofRel | version | clk0C | sampleCount | loopRel | clk2C | clk30 | dataRel | clk50 | clk54 | clk5C | clkC8
deriving DecidableEq, Repr

/-- The rows of 30_encoding.md rule R62's table, before their conditions are evaluated. An opcode byte
that no row claims is of class UNREC. -/
inductive MapRow
  | ggst | sn | sf0 | sf1 | opm | fm2op | fm1op | fmb0 | fmb1
  | waitN | wait735 | wait882 | loop | dataBlk | waitS | psg | bankSeek
deriving DecidableEq, Repr

/-- The opcode classes (R62, R71). -/
inductive OpClass
  | waits | waitn | wait735 | wait882 | wr (port : WrPort) | skip1 | skip2 | dataBlk | bankSeek | loop | unrec
deriving DecidableEq, Repr

/-- The selector values of the two phases of a write through one port (R100). -/
structure SelPair where
  reg : Sel
  data : Sel
deriving DecidableEq, Repr

/-- `SEL` (R100), one pair per driver port. -/
structure SelTable where
  fma : SelPair
  fmb0 : SelPair
  fmb1 : SelPair
  psg : SelPair
deriving DecidableEq, Repr

/-- The parameters of R10 that have a default in the spec; the defaults are in Machine/Params.lean. -/
structure Params where
  /-- `PROFILE`. -/
  profile : Profile
  /-- `FMA_FIELD`. -/
  fmaField : FmaField
  /-- `OPCODE_MAP`, as the opcode byte of each row of R62's table (log entry 5). -/
  opcodeMap : List (Byte × MapRow)
  /-- `DATA_BLOCK_MODE`. -/
  dataBlockMode : DataBlockMode
  /-- `FIELD_MIN_VERSION`; a field that is not listed is always meaningful. -/
  fieldMinVersion : List (HdrField × Word)
  /-- `MIN_HEADER_SIZE`. -/
  minHeaderSize : Word
  /-- `HDR_BUF_LEN`. -/
  hdrBufLen : Nat
  /-- `LEGACY_START`. -/
  legacyStart : Word
  /-- `SAMPLE_RATE`. -/
  sampleRate : Nat
  /-- `DUAL_CHECKED`. -/
  dualChecked : List HdrField
  /-- `PSG_STRIP_BIT7`. -/
  psgStripBit7 : Bool
  /-- `SEL`. -/
  sel : SelTable
  /-- `TICK_HZ`. -/
  tickHz : Nat
deriving DecidableEq, Repr

/-- The waits inside a bus transaction (42_chip_write.md rule R98). -/
inductive HoldKind
  | setup | pulse | hold | recovery
deriving DecidableEq, Repr

/-- `STROBE_ACTIVE_LOW`, OPEN (R10, D16). -/
opaque Config.strobeActiveLow : Bool

/-- `T_SETUP`, `PW_*`, `T_HOLD` and `T_RECOVERY` in microseconds, OPEN (R10, D17, D18). -/
opaque Config.holdMicros : HoldKind → Driver → Nat

/-- `CHIP_DEFAULT_HZ`, OPEN (R10, D30). -/
opaque Config.chipDefaultHz : Driver → Nat

/-- `CLK_DIV`, OPEN (R10, D30). -/
opaque Config.clkDiv : Driver → Nat

/-- Draw (R12): the achieved frequency that the clock-configuration service returns, one value per
occurrence (the first argument is the draw's number) and request. -/
opaque Config.achievedHz : Nat → Nat → Nat

/-- Draw (R12): whether the tick source fires while the handler with this draw number runs. -/
opaque Config.tickDuringHandler : Nat → Bool

end Sys2Proof
end

