-- ==== Sys2Proof/Machine/Params.lean ====
section
/-! DEFINITION. Reading the parameters of 00_scope.md rule R10: which drivers are wired, the opcode map and
its classes (30_encoding.md rules R61 to R63), the header fields' offsets (10_state.md rule R35), and the
spec's default of every parameter. -/
namespace Sys2Proof

/-- Is the driver wired in this profile? (R10) -/
def Profile.wired (pr : Profile) : Driver → Bool
  | .fma => pr.fma
  | .fmb => pr.fmb
  | .psg => pr.psg

/-- R62's condition on an FM-A row: "FMA wired and `FMA_FIELD` = f". -/
def Params.fmaAt (p : Params) (f : FmaField) : Bool :=
  p.profile.fma && decide (p.fmaField = f)

/-- The driver of a strobe target: `family` of R98. -/
def Target.family : Target → Driver
  | .fma => .fma
  | .fmb => .fmb
  | .psgA => .psg
  | .psgB => .psg

/-- The driver whose port a register-write command names. -/
def WrPort.driver : WrPort → Driver
  | .fma => .fma
  | .fmb0 => .fmb
  | .fmb1 => .fmb
  | .psg => .psg

/-- `SEL` at a port (R100). -/
def SelTable.at (t : SelTable) : WrPort → SelPair
  | .fma => t.fma
  | .fmb0 => t.fmb0
  | .fmb1 => t.fmb1
  | .psg => t.psg

/-- The row of R62's table that an opcode map gives a byte; the first row listed for the byte counts. -/
def mapLookup (m : List (Byte × MapRow)) (op : Byte) : Option MapRow :=
  match m with
  | [] => none
  | (b, r) :: rest => if b = op then some r else mapLookup rest op

/-- The opcode bytes a map lists for a row. -/
def mapOpcodes (m : List (Byte × MapRow)) (r : MapRow) : List Byte :=
  (m.filter (fun e => decide (e.2 = r))).map Prod.fst

/-- The row of R62's table that claims an opcode byte; none for a byte of class UNREC. -/
def Params.rowOf (p : Params) (op : Byte) : Option MapRow :=
  mapLookup p.opcodeMap op

/-- The class of a row: the table's "class when condition holds" or "class otherwise" (R62, R63). -/
def Params.rowClass (p : Params) : MapRow → OpClass
  | .ggst => .skip1
  | .sn => .skip1
  | .sf0 => .skip2
  | .sf1 => .skip2
  | .opm => if p.fmaAt .at30 then .wr .fma else .skip2
  | .fm2op => if p.fmaAt .at50 then .wr .fma else .skip2
  | .fm1op => if p.fmaAt .at54 then .wr .fma else .skip2
  | .fmb0 => if p.profile.fmb then .wr .fmb0 else .skip2
  | .fmb1 => if p.profile.fmb then .wr .fmb1 else .skip2
  | .waitN => .waitn
  | .wait735 => .wait735
  | .wait882 => .wait882
  | .loop => .loop
  | .dataBlk => .dataBlk
  | .waitS => .waits
  | .psg => if p.profile.psg then .wr .psg else .skip2
  | .bankSeek => .bankSeek

/-- `OPCODE_MAP[op]` (R62). -/
def Params.classOf (p : Params) (op : Byte) : OpClass :=
  match p.rowOf op with
  | some r => p.rowClass r
  | none => .unrec

/-- The operand bytes that a class reads before its command has any effect (R61): for a data block in
SKIP_FULL mode the six bytes before the payload. -/
def Params.operandBytes (p : Params) : OpClass → Nat
  | .waits => 0
  | .waitn => 2
  | .wait735 => 0
  | .wait882 => 0
  | .wr _ => 2
  | .skip1 => 1
  | .skip2 => 2
  | .dataBlk => if p.dataBlockMode = .noop then 0 else 6
  | .bankSeek => 3
  | .loop => 0
  | .unrec => 0

/-- A header field's offset in the song image (R35). -/
def HdrField.offset : HdrField → Nat
  | .eofRel => 0x04
  | .version => 0x08
  | .clk0C => 0x0C
  | .sampleCount => 0x18
  | .loopRel => 0x1C
  | .clk2C => 0x2C
  | .clk30 => 0x30
  | .dataRel => 0x34
  | .clk50 => 0x50
  | .clk54 => 0x54
  | .clk5C => 0x5C
  | .clkC8 => 0xC8

/-- The header fields in ascending offset order (R124). -/
def HdrField.ascending : List HdrField :=
  [.eofRel, .version, .clk0C, .sampleCount, .loopRel, .clk2C, .clk30, .dataRel, .clk50, .clk54, .clk5C, .clkC8]

/-- The header field that FM-A's clock stands in (R10). -/
def FmaField.field : FmaField → HdrField
  | .at30 => .clk30
  | .at50 => .clk50
  | .at54 => .clk54

/-- `chipField(d)` of R136. -/
def Params.chipField (p : Params) : Driver → HdrField
  | .fma => p.fmaField.field
  | .fmb => .clk5C
  | .psg => .clkC8

/-- `FIELD_MIN_VERSION[o]` (R125). -/
def Params.minVersion (p : Params) (f : HdrField) : Word :=
  match p.fieldMinVersion.find? (fun e => decide (e.1 = f)) with
  | some e => e.2
  | none => 0

/-- Selector lines a family uses (R96). -/
def Driver.addressWidth : Driver → Nat
  | .fma => 1
  | .fmb => 2
  | .psg => 1

/-- R62's opcode values. -/
def defaultOpcodeMap : List (Byte × MapRow) :=
  [(0x4F, .ggst), (0x50, .sn), (0x52, .sf0), (0x53, .sf1), (0x54, .opm), (0x5A, .fm2op), (0x5B, .fm1op),
   (0x5E, .fmb0), (0x5F, .fmb1), (0x61, .waitN), (0x62, .wait735), (0x63, .wait882), (0x66, .loop),
   (0x67, .dataBlk), (0xBD, .psg), (0xE0, .bankSeek)] ++
  (List.range 16).map (fun n => (BitVec.ofNat 8 (0x70 + n), .waitS))

/-- R100's default selector values, written A1 A0. -/
def defaultSel : SelTable where
  fma := ⟨0b00, 0b01⟩
  fmb0 := ⟨0b00, 0b01⟩
  fmb1 := ⟨0b10, 0b11⟩
  psg := ⟨0b01, 0b00⟩

/-- R125's default gates. -/
def defaultMinVersion : List (HdrField × Word) :=
  [(.clk2C, 0x0110), (.clk30, 0x0110), (.dataRel, 0x0150), (.clk50, 0x0151), (.clk54, 0x0151), (.clk5C, 0x0151),
   (.clkC8, 0x0171)]

/-- Every parameter at its default of R10, for a given profile. -/
def Params.ofProfile (pr : Profile) : Params where
  profile := pr
  fmaField := .at50
  opcodeMap := defaultOpcodeMap
  dataBlockMode := .noop
  fieldMinVersion := defaultMinVersion
  minHeaderSize := 0x40
  hdrBufLen := 0x100
  legacyStart := 0x40
  sampleRate := 44100
  dualChecked := [.clk0C, .clk2C, .clk30, .clk50, .clk54, .clk5C]
  psgStripBit7 := true
  sel := defaultSel
  tickHz := 44100

/-- `PROFILE_M` (R10): FM-A alone, the image in memory. -/
def Params.profileM : Params := Params.ofProfile ⟨true, false, false, .memory⟩

/-- `PROFILE_F` (R10): FM-B and the dual PSG, the image in a file. -/
def Params.profileF : Params := Params.ofProfile ⟨false, true, true, .file⟩

end Sys2Proof
end

