-- ==== Sys2Proof/Syntax.lean ====
section
/-! DEFINITION. The commands: one constructor per row of spec/opcode_table.json (30_encoding.md rules R61, R62,
R68). WR.FMA has three rows (one per value of `FMA_FIELD`) and DBLK two (one per `DATA_BLOCK_MODE`). -/
namespace Sys2Proof

/-- A command of the stream, its operand fields assembled as R64 says. -/
inductive Instr
  /-- `WAIT.S n` (R80). -/
  | waitS (n : Nibble)
  /-- `WAIT.N c` (R81). -/
  | waitN (count : Half)
  /-- `WAIT.735` (R82). -/
  | wait735
  /-- `WAIT.882` (R83). -/
  | wait882
  /-- `WR.FMA r, v` by the 2-operator opcode (R90; FMA wired, `FMA_FIELD` = 0x50). -/
  | wrFma2op (reg val : Byte)
  /-- `WR.FMA r, v` by the OPM-family opcode (R90; FMA wired, `FMA_FIELD` = 0x30). -/
  | wrFmaOpm (reg val : Byte)
  /-- `WR.FMA r, v` by the 1-operator opcode (R90; FMA wired, `FMA_FIELD` = 0x54). -/
  | wrFma1op (reg val : Byte)
  /-- `WR.FMB0 r, v` (R90, R102). -/
  | wrFmb0 (reg val : Byte)
  /-- `WR.FMB1 r, v` (R90, R102). -/
  | wrFmb1 (reg val : Byte)
  /-- `WR.PSG r, v` (R90, R104). -/
  | wrPsg (reg val : Byte)
  /-- `SKIP.GGST d` (R115). -/
  | skipGgst (d : Byte)
  /-- `SKIP.SN d` (R115). -/
  | skipSn (d : Byte)
  /-- `SKIP.SF0 r, v` (R115). -/
  | skipSf0 (r v : Byte)
  /-- `SKIP.SF1 r, v` (R115). -/
  | skipSf1 (r v : Byte)
  /-- `SKIP.OPM r, v` (R115; the OPM-family opcode where it is no WR.FMA). -/
  | skipOpm (r v : Byte)
  /-- `SKIP.FM2OP r, v` (R115; the 2-operator opcode where it is no WR.FMA). -/
  | skipFm2op (r v : Byte)
  /-- `SKIP.FM1OP r, v` (R115; the 1-operator opcode where it is no WR.FMA). -/
  | skipFm1op (r v : Byte)
  /-- `SKIP.FMB0 r, v` (R115; FM-B not wired). -/
  | skipFmb0 (r v : Byte)
  /-- `SKIP.FMB1 r, v` (R115; FM-B not wired). -/
  | skipFmb1 (r v : Byte)
  /-- `SKIP.PSG r, v` (R115; PSG not wired). -/
  | skipPsg (r v : Byte)
  /-- `LOOP` (R119). -/
  | loop
  /-- `DBLK` in NOOP mode (R116). -/
  | dblk
  /-- `DBLK` in SKIP_FULL mode (R117); `size` payload bytes follow the seven bytes of the command. -/
  | dblkFull (compat type : Byte) (size : Word)
  /-- `BSEEK b0, b1, b2` (R118). -/
  | bseek (b0 b1 b2 : Byte)
  /-- `.UNREC x` (R120). -/
  | unrec (op : Byte)
deriving DecidableEq, Repr

end Sys2Proof
end

