-- ==== Sys2Proof/WellFormed.lean ====
section
/-! DEFINITION. What the spec requires of the parameters (30_encoding.md rule R66, 42_chip_write.md rule R100)
and when a command belongs to a machine with given parameters (the conditions of 30_encoding.md rule R62). -/
namespace Sys2Proof

/-- The bytes `base .. base+15` for the base whose high nibble is that of `b`. -/
def waitsBlock (b : Byte) : List Byte :=
  (List.range 16).map (fun n => (b &&& 0xF0) ||| BitVec.ofNat 8 n)

/-- R66: every byte has one class (no byte is listed twice). -/
def mapTotal (m : List (Byte × MapRow)) : Bool :=
  decide (m.map Prod.fst).Nodup

/-- R66: exactly 16 values have class WAITS, and they are `base .. base+15` with `base[3:0]` = 0. -/
def mapWaits (m : List (Byte × MapRow)) : Bool :=
  let ws := mapOpcodes m .waitS
  decide (ws.length = 16) && (waitsBlock (ws.headD 0)).all (fun b => decide (mapLookup m b = some .waitS))

/-- R66: exactly one value each has class WAITN, WAIT735, WAIT882, LOOP, DATABLK and BANKSEEK. -/
def mapSingles (m : List (Byte × MapRow)) : Bool :=
  [MapRow.waitN, .wait735, .wait882, .loop, .dataBlk, .bankSeek].all (fun r => decide ((mapOpcodes m r).length = 1))

/-- The rows that are of class WR when their condition holds, with the driver port each then names (R62). -/
def Params.wrRows (p : Params) : List MapRow :=
  (if p.profile.fma then
    [match p.fmaField with
     | .at30 => MapRow.opm
     | .at50 => .fm2op
     | .at54 => .fm1op] else []) ++
  (if p.profile.fmb then [.fmb0, .fmb1] else []) ++ (if p.profile.psg then [.psg] else [])

/-- R66: each wired driver port has exactly one WR value. -/
def Params.mapWrites (p : Params) : Bool :=
  p.wrRows.all (fun r => decide ((mapOpcodes p.opcodeMap r).length = 1))

/-- R100: FM-B port 1 is port 0 with the high selector line set, and A1 is driven 0 for FM-A and PSG. -/
def SelTable.wf (t : SelTable) : Bool :=
  decide (t.fmb0.reg &&& 0b10 = 0) && decide (t.fmb0.data &&& 0b10 = 0) &&
  decide (t.fmb1.reg = t.fmb0.reg ||| 0b10) && decide (t.fmb1.data = t.fmb0.data ||| 0b10) &&
  decide (t.fma.reg &&& 0b10 = 0) && decide (t.fma.data &&& 0b10 = 0) &&
  decide (t.psg.reg &&& 0b10 = 0) && decide (t.psg.data &&& 0b10 = 0)

/-- What R66 and R100 require of the parameters. -/
def Params.wf (p : Params) : Bool :=
  mapTotal p.opcodeMap && mapWaits p.opcodeMap && mapSingles p.opcodeMap && p.mapWrites && p.sel.wf

/-- The map gives the row an opcode. -/
def Params.hasRow (p : Params) (r : MapRow) : Bool :=
  p.opcodeMap.any (fun e => decide (e.2 = r))

/-- The command has an encoding under these parameters: its row has an opcode and R62's condition for it
holds; for `.UNREC x`, no row claims the byte `x` (R65). -/
def Instr.wf (p : Params) : Instr → Bool
  | .waitS _ => p.hasRow .waitS
  | .waitN _ => p.hasRow .waitN
  | .wait735 => p.hasRow .wait735
  | .wait882 => p.hasRow .wait882
  | .wrFma2op _ _ => p.hasRow .fm2op && p.fmaAt .at50
  | .wrFmaOpm _ _ => p.hasRow .opm && p.fmaAt .at30
  | .wrFma1op _ _ => p.hasRow .fm1op && p.fmaAt .at54
  | .wrFmb0 _ _ => p.hasRow .fmb0 && p.profile.fmb
  | .wrFmb1 _ _ => p.hasRow .fmb1 && p.profile.fmb
  | .wrPsg _ _ => p.hasRow .psg && p.profile.psg
  | .skipGgst _ => p.hasRow .ggst
  | .skipSn _ => p.hasRow .sn
  | .skipSf0 _ _ => p.hasRow .sf0
  | .skipSf1 _ _ => p.hasRow .sf1
  | .skipOpm _ _ => p.hasRow .opm && !p.fmaAt .at30
  | .skipFm2op _ _ => p.hasRow .fm2op && !p.fmaAt .at50
  | .skipFm1op _ _ => p.hasRow .fm1op && !p.fmaAt .at54
  | .skipFmb0 _ _ => p.hasRow .fmb0 && !p.profile.fmb
  | .skipFmb1 _ _ => p.hasRow .fmb1 && !p.profile.fmb
  | .skipPsg _ _ => p.hasRow .psg && !p.profile.psg
  | .loop => p.hasRow .loop
  | .dblk => p.hasRow .dataBlk && decide (p.dataBlockMode = .noop)
  | .dblkFull _ _ _ => p.hasRow .dataBlk && decide (p.dataBlockMode = .skipFull)
  | .bseek _ _ _ => p.hasRow .bankSeek
  | .unrec op => decide (p.rowOf op = none)

end Sys2Proof
end

