-- ==== Sys2Proof/Decode.lean ====
section
/-! DEFINITION. Decoding a command from the bytes at the cursor (30_encoding.md rules R60 to R67) and the
encoder written from the same tables. The payload of a SKIP_FULL data block is no part of either: it is
skipped by the command's meaning (43_stream_control.md rule R117). -/
namespace Sys2Proof

/-- `LE16(b0, b1)` of R18. -/
def le16 (b0 b1 : Byte) : Half := b1 ++ b0

/-- `LE32(b0..b3)` of R18. -/
def le32 (b0 b1 b2 b3 : Byte) : Word := b3 ++ b2 ++ b1 ++ b0

/-- Byte `k` of a number, byte 0 the least significant. -/
def byteOf (w k : Nat) : Byte := BitVec.ofNat 8 (w >>> (8 * k))

/-- Why bytes decode to no command: there is no opcode byte, or the class's operand bytes are not all there. -/
inductive DecodeError
  | noOpcode
  | missingOperand
deriving DecidableEq, Repr

/-- What bytes decode to: a command and the bytes after it, or the reason there is none. -/
inductive Decoded
  | ok (i : Instr) (rest : List Byte)
  | error (e : DecodeError)
deriving DecidableEq, Repr

/-- Format F1 (R61): one operand byte. -/
def withOne (k : Byte → Instr) : List Byte → Decoded
  | b1 :: rest => .ok (k b1) rest
  | [] => .error .missingOperand

/-- Formats F2W and F2R (R61): two operand bytes. -/
def withTwo (k : Byte → Byte → Instr) : List Byte → Decoded
  | b1 :: b2 :: rest => .ok (k b1 b2) rest
  | _ => .error .missingOperand

/-- Format F3 (R61): three operand bytes. -/
def withThree (k : Byte → Byte → Byte → Instr) : List Byte → Decoded
  | b1 :: b2 :: b3 :: rest => .ok (k b1 b2 b3) rest
  | _ => .error .missingOperand

/-- Format FDB (R61), up to its payload: compatibility byte, type and `size` (LE32). -/
def withBlockHead : List Byte → Decoded
  | b1 :: b2 :: b3 :: b4 :: b5 :: b6 :: rest => .ok (.dblkFull b1 b2 (le32 b3 b4 b5 b6)) rest
  | _ => .error .missingOperand

/-- The command whose opcode byte `op` is of the given row of R62, its operands read from the bytes after it. -/
def decodeRow (p : Params) (op : Byte) (rest : List Byte) : MapRow → Decoded
  | .waitS => .ok (.waitS (op.truncate 4)) rest
  | .waitN => withTwo (fun lo hi => .waitN (le16 lo hi)) rest
  | .wait735 => .ok .wait735 rest
  | .wait882 => .ok .wait882 rest
  | .ggst => withOne .skipGgst rest
  | .sn => withOne .skipSn rest
  | .sf0 => withTwo .skipSf0 rest
  | .sf1 => withTwo .skipSf1 rest
  | .opm => withTwo (if p.fmaAt .at30 then .wrFmaOpm else .skipOpm) rest
  | .fm2op => withTwo (if p.fmaAt .at50 then .wrFma2op else .skipFm2op) rest
  | .fm1op => withTwo (if p.fmaAt .at54 then .wrFma1op else .skipFm1op) rest
  | .fmb0 => withTwo (if p.profile.fmb then .wrFmb0 else .skipFmb0) rest
  | .fmb1 => withTwo (if p.profile.fmb then .wrFmb1 else .skipFmb1) rest
  | .psg => withTwo (if p.profile.psg then .wrPsg else .skipPsg) rest
  | .loop => .ok .loop rest
  | .dataBlk => if p.dataBlockMode = .noop then .ok .dblk rest else withBlockHead rest
  | .bankSeek => withThree .bseek rest

/-- The command at the head of the bytes, and the bytes after it. Every opcode byte has a command (a byte
that no row claims is `.UNREC`, R65), so bytes are refused only for being too few. -/
def decode (p : Params) : List Byte → Decoded
  | [] => .error .noOpcode
  | op :: rest =>
    match p.rowOf op with
    | some r => decodeRow p op rest r
    | none => .ok (.unrec op) rest

/-- The opcode byte of a row: the first the map lists for it. -/
def Params.opcodeOf (p : Params) (r : MapRow) : Byte :=
  (mapOpcodes p.opcodeMap r).headD 0

/-- The bytes of a well-formed command (R61, R62, R64); the payload of a SKIP_FULL data block follows them. -/
def encode (p : Params) : Instr → List Byte
  | .waitS n => [(p.opcodeOf .waitS &&& 0xF0) ||| n.zeroExtend 8]
  | .waitN c => [p.opcodeOf .waitN, byteOf c.toNat 0, byteOf c.toNat 1]
  | .wait735 => [p.opcodeOf .wait735]
  | .wait882 => [p.opcodeOf .wait882]
  | .wrFma2op r v => [p.opcodeOf .fm2op, r, v]
  | .wrFmaOpm r v => [p.opcodeOf .opm, r, v]
  | .wrFma1op r v => [p.opcodeOf .fm1op, r, v]
  | .wrFmb0 r v => [p.opcodeOf .fmb0, r, v]
  | .wrFmb1 r v => [p.opcodeOf .fmb1, r, v]
  | .wrPsg r v => [p.opcodeOf .psg, r, v]
  | .skipGgst d => [p.opcodeOf .ggst, d]
  | .skipSn d => [p.opcodeOf .sn, d]
  | .skipSf0 r v => [p.opcodeOf .sf0, r, v]
  | .skipSf1 r v => [p.opcodeOf .sf1, r, v]
  | .skipOpm r v => [p.opcodeOf .opm, r, v]
  | .skipFm2op r v => [p.opcodeOf .fm2op, r, v]
  | .skipFm1op r v => [p.opcodeOf .fm1op, r, v]
  | .skipFmb0 r v => [p.opcodeOf .fmb0, r, v]
  | .skipFmb1 r v => [p.opcodeOf .fmb1, r, v]
  | .skipPsg r v => [p.opcodeOf .psg, r, v]
  | .loop => [p.opcodeOf .loop]
  | .dblk => [p.opcodeOf .dataBlk]
  | .dblkFull c t size =>
    [p.opcodeOf .dataBlk, c, t, byteOf size.toNat 0, byteOf size.toNat 1, byteOf size.toNat 2, byteOf size.toNat 3]
  | .bseek b0 b1 b2 => [p.opcodeOf .bankSeek, b0, b1, b2]
  | .unrec op => [op]

/-- The length of a command in bytes (R67). -/
def Instr.length : Instr → Nat
  | .waitS _ => 1
  | .waitN _ => 3
  | .wait735 => 1
  | .wait882 => 1
  | .wrFma2op _ _ => 3
  | .wrFmaOpm _ _ => 3
  | .wrFma1op _ _ => 3
  | .wrFmb0 _ _ => 3
  | .wrFmb1 _ _ => 3
  | .wrPsg _ _ => 3
  | .skipGgst _ => 2
  | .skipSn _ => 2
  | .skipSf0 _ _ => 3
  | .skipSf1 _ _ => 3
  | .skipOpm _ _ => 3
  | .skipFm2op _ _ => 3
  | .skipFm1op _ _ => 3
  | .skipFmb0 _ _ => 3
  | .skipFmb1 _ _ => 3
  | .skipPsg _ _ => 3
  | .loop => 1
  | .dblk => 1
  | .dblkFull _ _ size => 7 + size.toNat
  | .bseek _ _ _ => 4
  | .unrec _ => 1

/-- The most bytes that decoding reads: a SKIP_FULL data block up to its payload (R61). -/
def maxCommandBytes : Nat := 7

/-- The bytes of a table word as the image stores them: byte 0 (bits 7:0) at the lowest offset, every bit
above `nbits` zero (R60). -/
def tableBytes (nbits w : Nat) : List Byte :=
  (List.range maxCommandBytes).map (fun k => byteOf (w % 2 ^ nbits) k)

/-- What the decoder reads from a word of spec/opcode_table.json under the parameters that State.reset has
(profile M, every parameter at its default: log entry 4). -/
def decodeTableWord (nbits w : Nat) : Option Instr :=
  match decode Params.profileM (tableBytes nbits w) with
  | .ok i _ => some i
  | .error _ => none

end Sys2Proof
end

