-- ==== Sys2Proof/Machine/State.lean ====
section
/-! DEFINITION. Everything the spec gives the machine (10_state.md rules R24, R33, R35 to R38; INVENTORY.md
lists each piece), as plain data, and the state right after power-on (R40). -/
namespace Sys2Proof.Machine

/-- The song image: (offset, byte) pairs with offsets strictly rising and no byte equal to what an unlisted
offset reads as (log entry 2). -/
abbrev Memory := List Host.Cell

/-- The operation of the song source that fails (60_exceptions.md rule R146, E2). -/
inductive IoOp
  | openOp | readOp | seekOp
deriving DecidableEq, Repr

/-- What the external file system answers at boot step 1 (70_reset_and_hazards.md rule R171; log entry 15). -/
inductive SourceResult
  | ready
  | failed (op : IoOp)
deriving DecidableEq, Repr

/-- What is there before power-on and no step writes (R23, R47): parameters and the song source. -/
structure Launch where
  params : Params
  /-- The song image bytes, `IMG`. -/
  image : Memory
  /-- `streamLength` (R48). -/
  streamLength : Word
  sourceResult : SourceResult
deriving DecidableEq, Repr

/-- The interpreter state record (R24). -/
structure Interp where
  cursor : Word
  delayCounter : Half
  startOffset : Word
  loopOffset : Word
  endOffset : Word
  loopDefined : Bool
deriving DecidableEq, Repr

/-- The strobe lines `stb[FMA]`, `stb[FMB]`, `stb[PSGA]`, `stb[PSGB]` (R33), true for asserted. -/
structure Strobes where
  fma : Bool
  fmb : Bool
  psgA : Bool
  psgB : Bool
deriving DecidableEq, Repr

/-- The bus output state (R33). -/
structure Bus where
  data : Byte
  sel : Sel
  stb : Strobes
  activity : Bool
deriving DecidableEq, Repr

/-- The header registers (R35), one 32-bit word each. -/
structure Header where
  eofRel : Word
  version : Word
  clk0C : Word
  sampleCount : Word
  loopRel : Word
  clk2C : Word
  clk30 : Word
  dataRel : Word
  clk50 : Word
  clk54 : Word
  clk5C : Word
  clkC8 : Word
deriving DecidableEq, Repr

/-- A driver's chip configuration record (R37). -/
structure ChipConfig where
  clockHz : Nat
  pulseWidthMicros : Nat
  addressWidth : Nat
deriving DecidableEq, Repr

/-- The chip configuration records (R37); only those of wired drivers are ever written. -/
structure ChipConfigs where
  fma : ChipConfig
  fmb : ChipConfig
  psg : ChipConfig
deriving DecidableEq, Repr

/-- The frequency that each driver's clock output service achieved (R137, R166), before `CLK_DIV`. -/
structure ClockOuts where
  fma : Nat
  fmb : Nat
  psg : Nat
deriving DecidableEq, Repr

/-- The registers that the boot sequence writes once (R31, R35, R37, R166). -/
structure ConfigRegs where
  hdr : Header
  dualRouting : Bool
  cfg : ChipConfigs
  clockOut : ClockOuts
deriving DecidableEq, Repr

/-- `phase` (R38). -/
inductive Phase
  | boot | running | halted
deriving DecidableEq, Repr

/-- The condition codes E1 to E6 (60_exceptions.md rule R146). -/
inductive ErrCode
  /-- `MalformedHeader`, fatal. -/
  | e1
  /-- `IOFailure`, fatal. -/
  | e2
  /-- `ConfigurationUnsupported`, fatal. -/
  | e3
  /-- `ClockCalibrationDegraded`, recoverable. -/
  | e4
  /-- `MalformedStream`, recoverable. -/
  | e5
  /-- `StreamOverrun`, fatal. -/
  | e6
deriving DecidableEq, Repr

/-- The scheduler and status fields (R38), and the frequency the tick source was armed with (R154). -/
structure Sched where
  phase : Phase
  haltCode : Option ErrCode
  armed : Bool
  tickPending : Bool
  handlerBusy : Bool
  tickHz : Nat
deriving DecidableEq, Repr

/-- A bus transaction (00_scope.md rule R16). -/
structure BusRecord where
  target : Target
  sel : Sel
  byte : Byte
deriving DecidableEq, Repr

/-- What happens on the bus lines inside a transaction (42_chip_write.md rules R98, R108): the model's own
observation, which keeps the order of assert and deassert (log entry 12). -/
inductive PinEvent
  | drive (data : Byte) (sel : Sel)
  | wait (kind : HoldKind) (d : Driver)
  | strobeOn (t : Target)
  | strobeOff (t : Target)
deriving DecidableEq, Repr

/-- The info of a diagnostic record (60_exceptions.md rule R146). -/
inductive DiagInfo
  | length (n : Word)
  | operation (op : IoOp)
  | field (offset : Nat)
  | clock (d : Driver) (requested achieved : Nat)
  | opcode (op : Byte) (offset : Word)
  | offset (a : Word)
deriving DecidableEq, Repr

/-- A diagnostic record `(code, info)` (00_scope.md rule R17). -/
structure DiagRecord where
  code : ErrCode
  info : DiagInfo
deriving DecidableEq, Repr

/-- A clock request and the frequency achieved (R36, 44_header_parser.md rule R136). -/
structure ClockRecord where
  driver : Driver
  requested : Nat
  achieved : Nat
deriving DecidableEq, Repr

/-- The append-only traces (R36), and the model's own pin trace (log entry 12). -/
structure Traces where
  bus : List BusRecord
  pins : List PinEvent
  diag : List DiagRecord
  clock : List ClockRecord
deriving DecidableEq, Repr

/-- The machine's state. -/
structure State where
  launch : Launch
  interp : Interp
  bus : Bus
  config : ConfigRegs
  sched : Sched
  traces : Traces
  /-- The model's own counter of draws taken (R12; log entries 9 and 10). -/
  draws : Nat
deriving DecidableEq, Repr

/-- Why the machine stops. -/
inductive Fault
  /-- Raised by a step of a machine that is HALTED: nothing but a power cycle leaves that state
  (60_exceptions.md rule R152). Safe: the machine does nothing more. -/
  | halted
deriving DecidableEq, Repr

/-- Why the model gives no meaning. -/
inductive Refusal
  /-- Raised by an arm of `exec` whose instruction has no meaning in the model: no arm is of this kind. Safe. -/
  | notModelled (mnemonic : String)
deriving DecidableEq, Repr

/-- What a step or a command answers. -/
abbrev Result := Host.Outcome State Fault Refusal

/-- Every strobe deasserted. -/
def Strobes.off : Strobes := ⟨false, false, false, false⟩

/-- A header register file of zeros (log entry 6). -/
def Header.zero : Header := ⟨0, 0, 0, 0, 0, 0, 0, 0, 0, 0, 0, 0⟩

/-- A chip configuration record of zeros (log entry 6). -/
def ChipConfig.zero : ChipConfig := ⟨0, 0, 0⟩

/-- The state at power-on (R40). Phase, halt code, armed, pending and busy bits, strobes, activity and traces
are the spec's; every other register is zero (log entries 6 and 7); the parameters are profile M's
defaults and the song source is an empty image (log entries 3 and 4). -/
def State.reset : State where
  launch := { params := Params.profileM, image := [], streamLength := 0, sourceResult := .ready }
  interp := { cursor := 0, delayCounter := 0, startOffset := 0, loopOffset := 0, endOffset := 0, loopDefined := false }
  bus := { data := 0, sel := 0, stb := Strobes.off, activity := false }
  config :=
    { hdr := Header.zero, dualRouting := false, cfg := ⟨ChipConfig.zero, ChipConfig.zero, ChipConfig.zero⟩,
      clockOut := ⟨0, 0, 0⟩ }
  sched :=
    { phase := .boot, haltCode := none, armed := false, tickPending := false, handlerBusy := false, tickHz := 0 }
  traces := { bus := [], pins := [], diag := [], clock := [] }
  draws := 0

end Sys2Proof.Machine
end

