-- ==== Sys2Proof/Machine/Ops.lean ====
section
/-! DEFINITION. The shared operations: the song image (00_scope.md rule R15, 20_memory.md), the event
primitives and the permanent halt (00_scope.md rule R17, 60_exceptions.md rules R148, R150), the byte
reads of the interpreter (40_interpreter_core.md rules R74, R75) and the fetch of a command. -/
namespace Sys2Proof.Machine

/-! ### The song image -/

/-- What an offset that the image does not list reads as, where it lies below `streamLength` (log entry 2). -/
def Memory.unlisted : Byte := 0

/-- The canonical form: offsets strictly rising, no byte equal to `Memory.unlisted`. -/
abbrev Memory.wf (m : Memory) : Prop :=
  m.Pairwise (fun c d => c.1 < d.1) ∧ ∀ c ∈ m, c.2 ≠ Memory.unlisted

/-- The byte at an offset. -/
def Memory.read (m : Memory) (a : Nat) : Byte :=
  match m with
  | [] => Memory.unlisted
  | (k, b) :: rest => if k = a then b else Memory.read rest a

/-- The image with one byte placed: used only to load an image from outside, no step writes it (R47). -/
def Memory.write (m : Memory) (a : Nat) (b : Byte) : Memory :=
  match m with
  | [] => if b = Memory.unlisted then [] else [(a, b)]
  | (k, c) :: rest =>
    if a < k then (if b = Memory.unlisted then (k, c) :: rest else (a, b) :: (k, c) :: rest)
    else if a = k then (if b = Memory.unlisted then rest else (a, b) :: rest)
    else (k, c) :: Memory.write rest a b

/-- The image with bytes placed at ascending offsets. -/
def Memory.writeAll (m : Memory) (a : Nat) : List Byte → Memory
  | [] => m
  | b :: bs => Memory.writeAll (m.write a b) (a + 1) bs

/-- `MemRead(addr, 4)` of R15 inside the image: the 32-bit word whose least significant byte is at `a`. -/
def Memory.read32 (m : Memory) (a : Nat) : Word :=
  le32 (m.read a) (m.read (a + 1)) (m.read (a + 2)) (m.read (a + 3))

/-- `Fetch(addr)` of R15: none where the offset is not below `streamLength`. -/
def State.fetch? (s : State) (a : Word) : Option Byte :=
  if a < s.launch.streamLength then some (s.launch.image.read a.toNat) else none

/-! ### Interpreter registers -/

/-- `S.cursor <- v`. -/
def State.setCursor (s : State) (v : Word) : State := { s with interp.cursor := v }

/-- The cursor moved past `n` bytes (R25). -/
def State.advance (s : State) (n : Nat) : State := s.setCursor (s.interp.cursor + BitVec.ofNat 32 n)

/-- `S.delayCounter <- v`. -/
def State.setDelay (s : State) (v : Half) : State := { s with interp.delayCounter := v }

/-- The end-of-stream wrap (R74): equality only. -/
def State.endCheck (s : State) : State :=
  s.setCursor (if s.interp.cursor = s.interp.endOffset then s.interp.startOffset else s.interp.cursor)

/-! ### Events and the permanent halt -/

/-- `Emit((code, info))` (R17); also `raise Warn(code, info)` (R148), which changes no other state. -/
def State.emit (s : State) (code : ErrCode) (info : DiagInfo) : State :=
  { s with traces.diag := s.traces.diag ++ [⟨code, info⟩] }

/-- `raise Fatal(code, info)` (R150): the permanent halt. It saves nothing and keeps the bus lines. -/
def State.fatal (s : State) (code : ErrCode) (info : DiagInfo) : State :=
  { s.emit code info with
    sched.haltCode := some code
    sched.phase := .halted
    sched.armed := false }

/-- `StreamOverrun(a)` at the failing read (R17, R76): the cursor keeps the offset read, the block halts. -/
def State.overrun (s : State) (a : Word) : State :=
  (s.setCursor a).fatal .e6 (.offset a)

/-- Is the condition fatal? (R146 to R148) -/
def ErrCode.fatal : ErrCode → Bool
  | .e1 => true
  | .e2 => true
  | .e3 => true
  | .e4 => false
  | .e5 => false
  | .e6 => true

/-! ### Reading the stream -/

/-- `NextByte()` (R75); the error is the state after the halt. -/
def nextByte (s : State) : Except State (Byte × State) :=
  match s.fetch? s.interp.cursor with
  | some b => .ok (b, s.setCursor (s.interp.cursor + 1))
  | none => .error (s.overrun s.interp.cursor)

/-- The bytes that successive reads from `a` deliver, up to `n` of them, before one fails. -/
def State.readable (s : State) (a : Word) : Nat → List Byte
  | 0 => []
  | n + 1 =>
    match s.fetch? a with
    | some b => b :: State.readable s (a + 1) n
    | none => []

/-- The bytes at the cursor that a command's opcode and operands are read from. -/
def State.window (s : State) : List Byte := s.readable s.interp.cursor maxCommandBytes

/-- The command at the cursor, every operand byte read (R73, R75). Where a read fails, the error is the state
after the halt at the failing read (R76). -/
def fetchInstr (s : State) : Except State Instr :=
  match decode s.launch.params s.window with
  | .ok i _ => .ok i
  | .error _ => .error (s.overrun (s.interp.cursor + BitVec.ofNat 32 s.window.length))

/-- `n` discarded reads at the cursor (R117's payload): all of them, or a halt at the first offset that is
not below `streamLength` (log entry 17). -/
def State.skipBytes (s : State) (n : Nat) : State :=
  if n = 0 ∨ s.interp.cursor.toNat + n ≤ s.launch.streamLength.toNat then s.advance n
  else if s.interp.cursor < s.launch.streamLength then s.overrun s.launch.streamLength
  else s.overrun s.interp.cursor

/-! ### Loading from outside -/

/-- The state with a song image placed from outside the machine (R175; log entry 3). -/
def State.withImage (s : State) (bytes : List Byte) : State :=
  { s with launch := { s.launch with image := Memory.writeAll [] 0 bytes, streamLength := BitVec.ofNat 32 bytes.length } }

/-- Where the next command's bytes can all lie below a 32-bit `streamLength`: the cursor, or 0 when it is
within a command's length of 2^32. -/
def State.fetchOffset (s : State) : Word :=
  if s.interp.cursor.toNat + maxCommandBytes < 2 ^ 32 then s.interp.cursor else 0

/-- The state with the bytes placed at the cursor, the image long enough to hold them, the tick armed and no
delay or handler in progress, so that the next step fetches them (log entry 24). -/
def State.placeBytes (s : State) (bytes : List Byte) : State :=
  let a := s.fetchOffset
  { s with
    launch :=
      { s.launch with
        image := s.launch.image.writeAll a.toNat bytes
        streamLength := BitVec.ofNat 32 (max s.launch.streamLength.toNat (a.toNat + bytes.length)) }
    interp := { s.interp with cursor := a, delayCounter := 0 }
    sched := { s.sched with phase := .running, armed := true, handlerBusy := false } }

end Sys2Proof.Machine
end

