-- ==== Sys2Proof/Machine/Operands.lean ====
section
/-! DEFINITION. The operand forms of the commands (30_encoding.md rule R64): the short wait's nibble, the dual
PSG's instance and register index, and the parameters that a write command reads. A 16-bit or 32-bit
operand is assembled by `le16` and `le32` of Decode.lean. -/
namespace Sys2Proof.Machine

/-- WAITS `n` = `zext_16(opcode[3:0])` (R64). -/
def shortWaitCount (n : Nibble) : Half := n.zeroExtend 16

/-- The PSG chip that a register byte selects: bit 7 set is instance B, else instance A (R106). -/
def psgTarget (reg : Byte) : Target := if reg.getLsbD 7 then .psgB else .psgA

/-- The register byte of a PSG write on the bus (R104): `zext_8(reg[6:0])` under `PSG_STRIP_BIT7`. -/
def psgIndex (strip : Bool) (reg : Byte) : Byte := if strip then reg &&& 0x7F else reg

/-- `SEL[port]` of the machine (R100). -/
def State.selPair (s : State) (port : WrPort) : SelPair := s.launch.params.sel.at port

end Sys2Proof.Machine
end

