-- ==== Sys2Proof/Machine/Bus.lean ====
section
/-! DEFINITION. The chip bus and the three protocol engines (42_chip_write.md rules R93, R98, R101 to R106),
the activity indicator (R92) and the register-write command they all share (R90). -/
namespace Sys2Proof.Machine

/-- One strobe line. -/
def Strobes.get (b : Strobes) : Target → Bool
  | .fma => b.fma
  | .fmb => b.fmb
  | .psgA => b.psgA
  | .psgB => b.psgB

/-- One strobe line asserted or deasserted. -/
def Strobes.set (b : Strobes) (t : Target) (on : Bool) : Strobes :=
  match t with
  | .fma => { b with fma := on }
  | .fmb => { b with fmb := on }
  | .psgA => { b with psgA := on }
  | .psgB => { b with psgB := on }

/-- The electrical level of a strobe line (10_state.md rule R33; D16 leaves the polarity open). -/
def strobeLevel (asserted : Bool) : Bool := asserted != Config.strobeActiveLow

/-- The pin events of one transaction, in the order of R98's pseudocode: data and selector driven, the setup
wait, the strobe asserted for the pulse wait and deasserted, the hold and recovery waits (R99, R190). -/
def BusRecord.pins (r : BusRecord) : List PinEvent :=
  [.drive r.byte r.sel, .wait .setup r.target.family, .strobeOn r.target, .wait .pulse r.target.family,
   .strobeOff r.target, .wait .hold r.target.family, .wait .recovery r.target.family]

/-- `BusTx(target, sel, byte)` (R98): the lines keep the values driven, the target's strobe is asserted and
deasserted, the transaction is appended to `busTrace`. -/
def State.busTx (s : State) (t : Target) (sel : Sel) (byte : Byte) : State :=
  { s with
    bus :=
      { s.bus with
        data := byte
        sel := sel
        stb := (s.bus.stb.set t true).set t false }
    traces :=
      { s.traces with
        bus := s.traces.bus ++ [⟨t, sel, byte⟩]
        pins := s.traces.pins ++ BusRecord.pins ⟨t, sel, byte⟩ } }

/-- A driver write (R93): register phase first, data phase second. -/
def State.twoPhase (s : State) (t : Target) (sel : SelPair) (reg val : Byte) : State :=
  (s.busTx t sel.reg reg).busTx t sel.data val

/-- `FMA_write(reg, val)` (R101). -/
def State.fmaWrite (s : State) (reg val : Byte) : State := s.twoPhase .fma (s.selPair .fma) reg val

/-- `FMB_write(0, reg, val)` (R102). -/
def State.fmb0Write (s : State) (reg val : Byte) : State := s.twoPhase .fmb (s.selPair .fmb0) reg val

/-- `FMB_write(1, reg, val)` (R102). -/
def State.fmb1Write (s : State) (reg val : Byte) : State := s.twoPhase .fmb (s.selPair .fmb1) reg val

/-- `PSG_write(reg, val)` (R104): routing by bit 7 of `reg` alone (R105). -/
def State.psgWrite (s : State) (reg val : Byte) : State :=
  s.twoPhase (psgTarget reg) (s.selPair .psg) (psgIndex s.launch.params.psgStripBit7 reg) val

/-- `S.activity <- NOT S.activity` (R92). -/
def State.toggleActivity (s : State) : State := { s with bus.activity := !s.bus.activity }

/-- The strobe lines after a pin event. -/
def Strobes.after (b : Strobes) : PinEvent → Strobes
  | .drive _ _ => b
  | .wait _ _ => b
  | .strobeOn t => b.set t true
  | .strobeOff t => b.set t false

/-- How many strobes are asserted. -/
def Strobes.count (b : Strobes) : Nat := b.fma.toNat + b.fmb.toNat + b.psgA.toNat + b.psgB.toNat

/-- The time that pin events take: the sum of their waits, in microseconds (70_reset_and_hazards.md rule R178). -/
def pinMicros : List PinEvent → Nat
  | [] => 0
  | .wait kind d :: rest => Config.holdMicros kind d + pinMicros rest
  | .drive _ _ :: rest => pinMicros rest
  | .strobeOn _ :: rest => pinMicros rest
  | .strobeOff _ :: rest => pinMicros rest

end Sys2Proof.Machine
end

