-- ==== Sys2Proof/Machine/Flags.lean ====
section
/-! DEFINITION. The block has no condition codes (10_state.md rule R30). Its flag bits are those of the header's
clock+flags words (10_state.md rule R31), and the accessors that read them are pure functions of the
header registers (44_header_parser.md rules R125 to R132, R144). -/
namespace Sys2Proof.Machine

/-- Bits 29:0 of a clock+flags word: the clock in Hz (R126). -/
def clockBits (w : Word) : Word := w &&& 0x3FFFFFFF

/-- Bit 30 of a clock+flags word: the dual-chip flag (R127). -/
def dualBit (w : Word) : Bool := w.getLsbD 30

/-- Bit 31 of a clock+flags word: the alternate-mode flag, which no rule reads (R141). -/
def altModeBit (w : Word) : Bool := w.getLsbD 31

/-- The header register of a field (R35): `H[o]`. -/
def Header.get (h : Header) : HdrField → Word
  | .eofRel => h.eofRel
  | .version => h.version
  | .clk0C => h.clk0C
  | .sampleCount => h.sampleCount
  | .loopRel => h.loopRel
  | .clk2C => h.clk2C
  | .clk30 => h.clk30
  | .dataRel => h.dataRel
  | .clk50 => h.clk50
  | .clk54 => h.clk54
  | .clk5C => h.clk5C
  | .clkC8 => h.clkC8

/-- `valid(o)` (R125): the version is compared as an unsigned 32-bit integer (R139). -/
def fieldValid (p : Params) (h : Header) (f : HdrField) : Bool := decide (p.minVersion f ≤ h.version)

/-- The gated value `G(o)` (R125). -/
def gated (p : Params) (h : Header) (f : HdrField) : Word := if fieldValid p h f then h.get f else 0

/-- `clockOf(chip)` (R126). -/
def clockOf (p : Params) (h : Header) (f : HdrField) : Word := clockBits (gated p h f)

/-- `isDual(chip)` (R127). -/
def isDual (p : Params) (h : Header) (f : HdrField) : Bool := dualBit (gated p h f)

/-- `isPresent(chip)` (R131). -/
def isPresent (p : Params) (h : Header) (f : HdrField) : Bool := decide (clockOf p h f ≠ 0)

/-- `startOffset()` (R128). -/
def startOffsetOf (p : Params) (h : Header) : Word :=
  if h.version < 0x0150 then p.legacyStart else h.dataRel + 0x34

/-- `loopOffset()` (R129). -/
def loopOffsetOf (h : Header) : Word := h.loopRel + 0x1C

/-- `loopDefined` (R129, 10_state.md rule R29). -/
def loopDefinedOf (h : Header) : Bool := decide (h.loopRel ≠ 0)

/-- `endOffset` (R130). -/
def endOffsetOf (h : Header) : Word := h.eofRel + 4

/-- `lengthSamples()` (R132). -/
def lengthSamples (h : Header) : Nat := h.sampleCount.toNat

/-- `lengthSeconds()` (R132): rounded down. -/
def lengthSeconds (p : Params) (h : Header) : Nat := h.sampleCount.toNat / p.sampleRate

end Sys2Proof.Machine
end

