-- ==== Sys2Proof/Machine/Boot.lean ====
section
/-! DEFINITION. The boot sequence (70_reset_and_hazards.md rule R171): song source, header parse, validation,
interpreter offsets, chip clocks, outputs, arming. A step that can fail answers the halted state as its
error, and no later step then runs (R173). -/
namespace Sys2Proof.Machine

/-- Step 1: a file that cannot be opened, read or sought is fatal; the in-memory buffer cannot fail (R171). -/
def openSource (s : State) : Except State State :=
  match s.launch.params.profile.source, s.launch.sourceResult with
  | .file, .failed op => .error (s.fatal .e2 (.operation op))
  | .file, .ready => .ok s
  | .memory, _ => .ok s

/-- The length of the header buffer `HB` (R123). -/
def Launch.headerBytes (l : Launch) : Nat := min l.streamLength.toNat l.params.hdrBufLen

/-- One header field: a field that does not lie in the header buffer reads as 0 (R124). -/
def Launch.headerField (l : Launch) (f : HdrField) : Word :=
  if f.offset + 4 ≤ l.headerBytes then l.image.read32 f.offset else 0

/-- The header registers that `parse` writes (R124, R35). -/
def Launch.header (l : Launch) : Header where
  eofRel := l.headerField .eofRel
  version := l.headerField .version
  clk0C := l.headerField .clk0C
  sampleCount := l.headerField .sampleCount
  loopRel := l.headerField .loopRel
  clk2C := l.headerField .clk2C
  clk30 := l.headerField .clk30
  dataRel := l.headerField .dataRel
  clk50 := l.headerField .clk50
  clk54 := l.headerField .clk54
  clk5C := l.headerField .clk5C
  clkC8 := l.headerField .clkC8

/-- Step 2, `parse()` (R124). -/
def parse (s : State) : Except State State :=
  if s.launch.streamLength < s.launch.params.minHeaderSize then
    .error (s.fatal .e1 (.length s.launch.streamLength))
  else .ok { s with config.hdr := s.launch.header }

/-- The lowest header field of `DUAL_CHECKED` whose gated dual flag is set (R133). -/
def dualOffender (p : Params) (h : Header) : Option HdrField :=
  HdrField.ascending.find? (fun f => decide (f ∈ p.dualChecked) && isDual p h f)

/-- Step 3, `validate()` (R133). -/
def validate (s : State) : Except State State :=
  match dualOffender s.launch.params s.config.hdr with
  | some f => .error (s.fatal .e3 (.field f.offset))
  | none => .ok { s with config.dualRouting := isDual s.launch.params s.config.hdr .clkC8 }

/-- Step 4: the interpreter offsets (R128 to R130). -/
def State.setOffsets (s : State) : State :=
  { s with
    interp.startOffset := startOffsetOf s.launch.params s.config.hdr
    interp.loopOffset := loopOffsetOf s.config.hdr
    interp.loopDefined := loopDefinedOf s.config.hdr
    interp.endOffset := endOffsetOf s.config.hdr }

/-- One driver's chip configuration record. -/
def ChipConfigs.get (c : ChipConfigs) : Driver → ChipConfig
  | .fma => c.fma
  | .fmb => c.fmb
  | .psg => c.psg

/-- One driver's chip configuration record written. -/
def ChipConfigs.set (c : ChipConfigs) (d : Driver) (r : ChipConfig) : ChipConfigs :=
  match d with
  | .fma => { c with fma := r }
  | .fmb => { c with fmb := r }
  | .psg => { c with psg := r }

/-- One driver's clock output. -/
def ClockOuts.get (c : ClockOuts) : Driver → Nat
  | .fma => c.fma
  | .fmb => c.fmb
  | .psg => c.psg

/-- One driver's clock output programmed. -/
def ClockOuts.set (c : ClockOuts) (d : Driver) (hz : Nat) : ClockOuts :=
  match d with
  | .fma => { c with fma := hz }
  | .fmb => { c with fmb := hz }
  | .psg => { c with psg := hz }

/-- The chip clock that `clockInit(d)` asks for (R136): the header's where the chip is present, else the OPEN
family default. -/
def chipHz (p : Params) (h : Header) (d : Driver) : Nat :=
  if isPresent p h (p.chipField d) then (clockOf p h (p.chipField d)).toNat else Config.chipDefaultHz d

/-- The frequency that `clockInit(d)` requests (R136). -/
def requestHz (p : Params) (h : Header) (d : Driver) : Nat := chipHz p h d * Config.clkDiv d

/-- The chip clock output of a driver (R137): `a / CLK_DIV[d]`, as numerator and denominator. -/
def chipClock (s : State) (d : Driver) : Nat × Nat := (s.config.clockOut.get d, Config.clkDiv d)

/-- The record of `raise Warn(E4, (d, req, a))`, where the achieved frequency differs (R136, R137). -/
def calibrationWarning (d : Driver) (req a : Nat) : List DiagRecord :=
  if a = req then [] else [⟨.e4, .clock d req a⟩]

/-- `clockInit(d)` (R136), with the rest of the driver's chip configuration record (R37; log entry 18). -/
def State.clockInit (s : State) (d : Driver) : State :=
  let req := requestHz s.launch.params s.config.hdr d
  let a := Config.achievedHz s.draws req
  { s with
    config.cfg := s.config.cfg.set d
      { clockHz := chipHz s.launch.params s.config.hdr d
        pulseWidthMicros := Config.holdMicros .pulse d
        addressWidth := d.addressWidth }
    config.clockOut := s.config.clockOut.set d a
    traces.clock := s.traces.clock ++ [⟨d, req, a⟩]
    traces.diag := s.traces.diag ++ calibrationWarning d req a
    draws := s.draws + 1 }

/-- The wired drivers in the order FMA, FMB, PSG (R136). -/
def driversOf (pr : Profile) : List Driver := [Driver.fma, .fmb, .psg].filter pr.wired

/-- Step 5: every wired driver's `clockInit` (R136, R138). -/
def State.clockInits (s : State) : State := (driversOf s.launch.params.profile).foldl State.clockInit s

/-- Step 6: interpreter state and outputs. -/
def State.initOutputs (s : State) : State :=
  { s with
    interp.cursor := s.interp.startOffset
    interp.delayCounter := 0
    bus.activity := false
    bus.stb := Strobes.off }

/-- Step 7: the tick source armed (R154). -/
def State.arm (s : State) : State :=
  { s with
    sched.phase := .running
    sched.armed := true
    sched.tickHz := s.launch.params.tickHz }

/-- `boot()` (R171). -/
def boot (s : State) : State :=
  match openSource s with
  | .error h => h
  | .ok s1 =>
    match parse s1 with
    | .error h => h
    | .ok s2 =>
      match validate s2 with
      | .error h => h
      | .ok s3 => s3.setOffsets.clockInits.initOutputs.arm

end Sys2Proof.Machine
end

