-- ==== Sys2Proof/Machine/ChipWrite.lean ====
section
/-! DEFINITION. The register-write commands (42_chip_write.md rule R90): operands read, the driver write, then
the activity indicator toggled. The write is performed whether or not the header declares the chip
present (R109). -/
namespace Sys2Proof.Machine

/-- `WR.FMA r, v` by the 2-operator opcode (R90, R101). -/
def execWrFma2op (reg val : Byte) (s : State) : Result := .next ((s.advance 3).fmaWrite reg val).toggleActivity

/-- `WR.FMA r, v` by the OPM-family opcode (R90, R101). -/
def execWrFmaOpm (reg val : Byte) (s : State) : Result := .next ((s.advance 3).fmaWrite reg val).toggleActivity

/-- `WR.FMA r, v` by the 1-operator opcode (R90, R101). -/
def execWrFma1op (reg val : Byte) (s : State) : Result := .next ((s.advance 3).fmaWrite reg val).toggleActivity

/-- `WR.FMB0 r, v` (R90, R102). -/
def execWrFmb0 (reg val : Byte) (s : State) : Result := .next ((s.advance 3).fmb0Write reg val).toggleActivity

/-- `WR.FMB1 r, v` (R90, R102). -/
def execWrFmb1 (reg val : Byte) (s : State) : Result := .next ((s.advance 3).fmb1Write reg val).toggleActivity

/-- `WR.PSG r, v` (R90, R104). -/
def execWrPsg (reg val : Byte) (s : State) : Result := .next ((s.advance 3).psgWrite reg val).toggleActivity

end Sys2Proof.Machine
end

