-- ==== Sys2Proof/Machine/StreamControl.lean ====
section
/-! DEFINITION. Skips, data block, bank seek, loop and unrecognized opcodes (43_stream_control.md). Discarded
operands have no effect but the cursor's advance past them. -/
namespace Sys2Proof.Machine

/-- `SKIP.GGST d` (R115). -/
def execSkipGgst (_d : Byte) (s : State) : Result := .next (s.advance 2)

/-- `SKIP.SN d` (R115). -/
def execSkipSn (_d : Byte) (s : State) : Result := .next (s.advance 2)

/-- `SKIP.SF0 r, v` (R115). -/
def execSkipSf0 (_r _v : Byte) (s : State) : Result := .next (s.advance 3)

/-- `SKIP.SF1 r, v` (R115). -/
def execSkipSf1 (_r _v : Byte) (s : State) : Result := .next (s.advance 3)

/-- `SKIP.OPM r, v` (R115). -/
def execSkipOpm (_r _v : Byte) (s : State) : Result := .next (s.advance 3)

/-- `SKIP.FM2OP r, v` (R115). -/
def execSkipFm2op (_r _v : Byte) (s : State) : Result := .next (s.advance 3)

/-- `SKIP.FM1OP r, v` (R115). -/
def execSkipFm1op (_r _v : Byte) (s : State) : Result := .next (s.advance 3)

/-- `SKIP.FMB0 r, v` (R115). -/
def execSkipFmb0 (_r _v : Byte) (s : State) : Result := .next (s.advance 3)

/-- `SKIP.FMB1 r, v` (R115). -/
def execSkipFmb1 (_r _v : Byte) (s : State) : Result := .next (s.advance 3)

/-- `SKIP.PSG r, v` (R115). -/
def execSkipPsg (_r _v : Byte) (s : State) : Result := .next (s.advance 3)

/-- `LOOP` (R119). -/
def execLoop (s : State) : Result :=
  .next (s.setCursor (if s.interp.loopDefined then s.interp.loopOffset else s.interp.startOffset))

/-- `DBLK` in NOOP mode (R116). -/
def execDblk (s : State) : Result := .next (s.advance 1)

/-- `DBLK` in SKIP_FULL mode (R117): seven bytes, then `size` discarded payload bytes, any of which may
overrun the image. -/
def execDblkFull (_compat _type : Byte) (size : Word) (s : State) : Result :=
  .next ((s.advance 7).skipBytes size.toNat)

/-- `BSEEK b0, b1, b2` (R118). -/
def execBseek (_b0 _b1 _b2 : Byte) (s : State) : Result := .next (s.advance 4)

/-- `.UNREC x` (R120): logged with the opcode's offset, no operand consumed. -/
def execUnrec (op : Byte) (s : State) : Result := .next ((s.advance 1).emit .e5 (.opcode op s.interp.cursor))

end Sys2Proof.Machine
end

