-- ==== Sys2Proof/Machine/Wait.lean ====
section
/-! DEFINITION. The wait commands (41_wait.md). A meaning starts with the cursor at the command's opcode byte
and its operands read (log entry 16). -/
namespace Sys2Proof.Machine

/-- `WAIT.S n` (R80). -/
def execWaitS (n : Nibble) (s : State) : Result := .next ((s.advance 1).setDelay (shortWaitCount n))

/-- `WAIT.N c` (R81). -/
def execWaitN (count : Half) (s : State) : Result := .next ((s.advance 3).setDelay count)

/-- `WAIT.735` (R82). -/
def execWait735 (s : State) : Result := .next ((s.advance 1).setDelay 735)

/-- `WAIT.882` (R83). -/
def execWait882 (s : State) : Result := .next ((s.advance 1).setDelay 882)

end Sys2Proof.Machine
end

