-- ==== Sys2Proof/Machine/Dispatch.lean ====
section
/-! DEFINITION. One arm per command: the dispatch of 40_interpreter_core.md rule R71. -/
namespace Sys2Proof.Machine

def exec (i : Instr) (s : State) : Host.Outcome State Fault Refusal :=
  match i with
  | .waitS n => Sys2Proof.Machine.execWaitS n s
  | .waitN c => Sys2Proof.Machine.execWaitN c s
  | .wait735 => Sys2Proof.Machine.execWait735 s
  | .wait882 => Sys2Proof.Machine.execWait882 s
  | .wrFma2op r v => Sys2Proof.Machine.execWrFma2op r v s
  | .wrFmaOpm r v => Sys2Proof.Machine.execWrFmaOpm r v s
  | .wrFma1op r v => Sys2Proof.Machine.execWrFma1op r v s
  | .wrFmb0 r v => Sys2Proof.Machine.execWrFmb0 r v s
  | .wrFmb1 r v => Sys2Proof.Machine.execWrFmb1 r v s
  | .wrPsg r v => Sys2Proof.Machine.execWrPsg r v s
  | .skipGgst d => Sys2Proof.Machine.execSkipGgst d s
  | .skipSn d => Sys2Proof.Machine.execSkipSn d s
  | .skipSf0 r v => Sys2Proof.Machine.execSkipSf0 r v s
  | .skipSf1 r v => Sys2Proof.Machine.execSkipSf1 r v s
  | .skipOpm r v => Sys2Proof.Machine.execSkipOpm r v s
  | .skipFm2op r v => Sys2Proof.Machine.execSkipFm2op r v s
  | .skipFm1op r v => Sys2Proof.Machine.execSkipFm1op r v s
  | .skipFmb0 r v => Sys2Proof.Machine.execSkipFmb0 r v s
  | .skipFmb1 r v => Sys2Proof.Machine.execSkipFmb1 r v s
  | .skipPsg r v => Sys2Proof.Machine.execSkipPsg r v s
  | .loop => Sys2Proof.Machine.execLoop s
  | .dblk => Sys2Proof.Machine.execDblk s
  | .dblkFull c t size => Sys2Proof.Machine.execDblkFull c t size s
  | .bseek b0 b1 b2 => Sys2Proof.Machine.execBseek b0 b1 b2 s
  | .unrec op => Sys2Proof.Machine.execUnrec op s

end Sys2Proof.Machine
end

