-- ==== Sys2Proof/Machine/Scheduler.lean ====
section
/-! DEFINITION. The tick interrupt (60_exceptions.md rules R154 to R158): a firing of the tick source, and the
handler's entry and exit. -/
namespace Sys2Proof.Machine

/-- The tick source fires (R155, R156): pending if armed, no effect otherwise or if already pending. -/
def State.tickFires (s : State) : State :=
  { s with sched.tickPending := s.sched.armed || s.sched.tickPending }

/-- May the handler start? (R157) -/
def State.handlerReady (s : State) : Bool :=
  s.sched.tickPending && !s.sched.handlerBusy && decide (s.sched.phase = .running)

/-- Handler entry (R157). Whether a tick fires while the handler runs, and so is pending when it returns
(R158), is a draw (R12; log entry 9). -/
def State.enterHandler (s : State) : State :=
  { s with
    sched.tickPending := s.sched.armed && Config.tickDuringHandler s.draws
    sched.handlerBusy := true
    draws := s.draws + 1 }

/-- Handler exit (R157, R169). -/
def State.exitHandler (s : State) : State := { s with sched.handlerBusy := false }

end Sys2Proof.Machine
end

