-- ==== Sys2Proof/Machine/Interp.lean ====
section
/-! DEFINITION. The interpreter's `step()` (40_interpreter_core.md rule R71) run by the tick handler
(60_exceptions.md rule R157), and what one step of the whole machine is in each phase (10_state.md rule
R38; log entry 8). -/
namespace Sys2Proof.Machine

/-- After the command rule: the end check (R74), unless the command halted, which ends the step (R76). -/
def afterCommand : Result → Result
  | .next t => .next (if t.sched.phase = .running then t.endCheck else t)
  | .fault f => .fault f
  | .refused r => .refused r

/-- `step()` (R71): a delay tick (R72), or one command fetched and run (R73), then the end check. -/
def interpStep (s : State) : Result :=
  if 0 < s.interp.delayCounter then .next (s.setDelay (s.interp.delayCounter - 1))
  else
    match fetchInstr s with
    | .error h => .next h
    | .ok i => afterCommand (exec i s)

/-- The handler's exit around an outcome. -/
def leaveHandler : Result → Result
  | .next t => .next t.exitHandler
  | .fault f => .fault f
  | .refused r => .refused r

/-- The tick handler (R157). -/
def runHandler (s : State) : Result := leaveHandler (interpStep s.enterHandler)

/-- The engine context while RUNNING: it idles until the next firing, where none is pending, and the handler
runs if it may start (R155, R157, R163). -/
def onTick (s : State) : Result :=
  if s.tickFires.handlerReady then runHandler s.tickFires else .next s.tickFires

/-- One step of the machine: the whole boot sequence, one taken tick, or nothing more after a halt (R152). -/
def machineStep (s : State) : Result :=
  match s.sched.phase with
  | .boot => .next (boot s)
  | .running => onTick s
  | .halted => .fault .halted

end Sys2Proof.Machine
end

