-- ==== Sys2Proof/Machine/Step.lean ====
section
/-! DEFINITION. One step of the machine, and the placing of a command where that step fetches it. What a step
does is in Machine/Interp.lean. -/
namespace Sys2Proof.Machine

/-- One step: the boot sequence, or one taken tick. -/
def step (s : State) : Host.Outcome State Fault Refusal := machineStep s

/-- The state with a table word placed where the next step fetches its command (log entries 3 and 24). -/
def State.withFetchWord (s : State) (nbits w : Nat) : State := s.placeBytes (tableBytes nbits w)

end Sys2Proof.Machine
end

