-- ==== Sys2Proof/Machine/Reference.lean ====
section
/-! DEFINITION. The pseudocode of `step()` and of every command rule written out by opcode CLASS, one `NextByte()`
after another (40_interpreter_core.md rules R71, R75; 41_wait.md, 42_chip_write.md, 43_stream_control.md):
the clear form that the machine's fetch, decode and dispatch are held to. No step of the machine calls
it. -/
namespace Sys2Proof.Machine

/-- `exec_SKIP(k)` (R115): `k` bytes read and discarded, one at a time; also R118 and the payload of R117. -/
def refSkip : Nat → State → Except State State
  | 0, s => .ok s
  | k + 1, s =>
    match nextByte s with
    | .error h => .error h
    | .ok (_, t) => refSkip k t

/-- A driver write by port: the case distinction of `exec_WR` (R90). -/
def State.portWrite (s : State) (port : WrPort) (reg val : Byte) : State :=
  match port with
  | .fma => s.fmaWrite reg val
  | .fmb0 => s.fmb0Write reg val
  | .fmb1 => s.fmb1Write reg val
  | .psg => s.psgWrite reg val

/-- `exec_WAITN()` (R81). -/
def refWaitN (s : State) : Except State State := do
  let (lo, s) ← nextByte s
  let (hi, s) ← nextByte s
  return s.setDelay (le16 lo hi)

/-- `exec_WR(d, p)` (R90). -/
def refWr (port : WrPort) (s : State) : Except State State := do
  let (reg, s) ← nextByte s
  let (val, s) ← nextByte s
  return (s.portWrite port reg val).toggleActivity

/-- `exec_DATABLK()` in SKIP_FULL mode (R117). -/
def refDataBlk (s : State) : Except State State := do
  let (_, s) ← nextByte s
  let (_, s) ← nextByte s
  let (b0, s) ← nextByte s
  let (b1, s) ← nextByte s
  let (b2, s) ← nextByte s
  let (b3, s) ← nextByte s
  refSkip (le32 b0 b1 b2 b3).toNat s

/-- `exec_LOOP()` (R119). -/
def refLoop (s : State) : State :=
  if s.interp.loopDefined then s.setCursor s.interp.loopOffset else s.setCursor s.interp.startOffset

/-- The case distinction of `step()` (R71), the opcode byte already read. -/
def refDispatch (op : Byte) (s : State) : Except State State :=
  match s.launch.params.classOf op with
  | .waits => .ok (s.setDelay (shortWaitCount (op.truncate 4)))
  | .waitn => refWaitN s
  | .wait735 => .ok (s.setDelay 735)
  | .wait882 => .ok (s.setDelay 882)
  | .wr port => refWr port s
  | .skip1 => refSkip 1 s
  | .skip2 => refSkip 2 s
  | .dataBlk => if s.launch.params.dataBlockMode = .noop then .ok s else refDataBlk s
  | .bankSeek => refSkip 3 s
  | .loop => .ok (refLoop s)
  | .unrec => .ok (s.emit .e5 (.opcode op (s.interp.cursor - 1)))

/-- The fetching branch of `step()`: opcode, command rule, end check; a fault ends it (R76). -/
def refCommand (s : State) : Except State State := do
  let (op, s) ← nextByte s
  let t ← refDispatch op s
  return t.endCheck

/-- `step()` (R71). -/
def refStep (s : State) : State :=
  if 0 < s.interp.delayCounter then s.setDelay (s.interp.delayCounter - 1)
  else
    match refCommand s with
    | .ok t => t
    | .error h => h

end Sys2Proof.Machine
end

