-- ==== Sys2Proof/Safety.lean ====
section
/-! DEFINITION. What a good state is, in the terms that the statements use: the invariant of the machine's steps,
the power-on states, the states about to fetch a command, and agreement of two states up to the tick
schedule. -/
namespace Sys2Proof

/-- The driver port that a register-write command writes (42_chip_write.md rule R90); none for every other
command. -/
def Instr.wrPort : Instr → Option WrPort
  | .wrFma2op _ _ => some .fma
  | .wrFmaOpm _ _ => some .fma
  | .wrFma1op _ _ => some .fma
  | .wrFmb0 _ _ => some .fmb0
  | .wrFmb1 _ _ => some .fmb1
  | .wrPsg _ _ => some .psg
  | .waitS _ => none
  | .waitN _ => none
  | .wait735 => none
  | .wait882 => none
  | .skipGgst _ => none
  | .skipSn _ => none
  | .skipSf0 _ _ => none
  | .skipSf1 _ _ => none
  | .skipOpm _ _ => none
  | .skipFm2op _ _ => none
  | .skipFm1op _ _ => none
  | .skipFmb0 _ _ => none
  | .skipFmb1 _ _ => none
  | .skipPsg _ _ => none
  | .loop => none
  | .dblk => none
  | .dblkFull _ _ _ => none
  | .bseek _ _ _ => none
  | .unrec _ => none

/-- The delay count that a wait command writes (41_wait.md rules R80 to R83); none for every other command. -/
def Instr.waitCount : Instr → Option Half
  | .waitS n => some (n.zeroExtend 16)
  | .waitN c => some c
  | .wait735 => some 735
  | .wait882 => some 882
  | .wrFma2op _ _ => none
  | .wrFmaOpm _ _ => none
  | .wrFma1op _ _ => none
  | .wrFmb0 _ _ => none
  | .wrFmb1 _ _ => none
  | .wrPsg _ _ => none
  | .skipGgst _ => none
  | .skipSn _ => none
  | .skipSf0 _ _ => none
  | .skipSf1 _ _ => none
  | .skipOpm _ _ => none
  | .skipFm2op _ _ => none
  | .skipFm1op _ _ => none
  | .skipFmb0 _ _ => none
  | .skipFmb1 _ _ => none
  | .skipPsg _ _ => none
  | .loop => none
  | .dblk => none
  | .dblkFull _ _ _ => none
  | .bseek _ _ _ => none
  | .unrec _ => none

end Sys2Proof

namespace Sys2Proof.Machine

/-- A run is safe as long as the machine is not HALTED (60_exceptions.md rule R152). -/
abbrev State.safe (s : State) : Prop := s.sched.phase ≠ .halted

/-- The source's cursor invariant, a property of well-formed songs only (10_state.md rule R26). -/
abbrev State.cursorInImage (s : State) : Prop := s.interp.cursor < s.launch.streamLength

/-- The song image is in its canonical form and lies below `streamLength` (20_memory.md rules R46, R47). -/
abbrev Launch.imageOk (l : Launch) : Prop :=
  l.image.wf ∧ ∀ c ∈ l.image, c.1 < l.streamLength.toNat

/-- The scheduler's fields agree (10_state.md rule R38, 60_exceptions.md rules R150, R157): armed exactly while
RUNNING, a fatal halt code exactly while HALTED, no handler running between steps, and no tick pending
before arming. -/
abbrev Sched.ok (c : Sched) : Prop :=
  c.armed = decide (c.phase = .running) ∧
  (∀ e, c.haltCode = some e → e.fatal = true) ∧ (c.haltCode.isSome = decide (c.phase = .halted)) ∧
  c.handlerBusy = false ∧ (c.phase = .boot → c.tickPending = false)

/-- Between steps every strobe is deasserted and the lines keep the last transaction's values (10_state.md rule
R34); transactions come in pairs, and the activity indicator has toggled once for each pair
(42_chip_write.md rules R91, R92). -/
abbrev State.busOk (s : State) : Prop :=
  s.bus.stb = Strobes.off ∧
  (∀ r, s.traces.bus.getLast? = some r → s.bus.data = r.byte ∧ s.bus.sel = r.sel) ∧
  s.traces.bus.length % 2 = 0 ∧ s.bus.activity = decide (s.traces.bus.length % 4 = 2) ∧
  s.traces.pins = s.traces.bus.flatMap BusRecord.pins

/-- Only wired drivers' strobes are used (42_chip_write.md rule R110). -/
abbrev State.wiredOnly (s : State) : Prop :=
  ∀ r ∈ s.traces.bus, s.launch.params.profile.wired r.target.family = true

/-- While RUNNING, the boot-written registers are those of the image and the parameters, and every wired driver's
clock has been requested exactly once, in order (44_header_parser.md rules R138, R144). -/
abbrev State.bootDone (s : State) : Prop :=
  s.config.hdr = s.launch.header ∧
  s.interp.startOffset = startOffsetOf s.launch.params s.config.hdr ∧
  s.interp.loopOffset = loopOffsetOf s.config.hdr ∧
  s.interp.loopDefined = loopDefinedOf s.config.hdr ∧
  s.interp.endOffset = endOffsetOf s.config.hdr ∧
  s.config.dualRouting = isDual s.launch.params s.config.hdr .clkC8 ∧
  dualOffender s.launch.params s.config.hdr = none ∧
  s.traces.clock.map ClockRecord.driver = driversOf s.launch.params.profile

/-- Before the boot sequence no trace holds anything (10_state.md rule R40). -/
abbrev Traces.empty (t : Traces) : Prop := t.bus = [] ∧ t.pins = [] ∧ t.diag = [] ∧ t.clock = []

/-- The fatal records of the diagnostic trace. -/
def fatalRecords (l : List DiagRecord) : List DiagRecord := l.filter (fun r => r.code.fatal)

/-- The invariant of the machine's steps. -/
structure State.Inv (s : State) : Prop where
  image : s.launch.imageOk
  sched : s.sched.ok
  bus : s.busOk
  wired : s.wiredOnly
  boot : s.sched.phase = .boot → s.traces.empty
  running : s.sched.phase = .running → s.bootDone
  /-- At most one fatal condition is ever reported (60_exceptions.md rule R161). -/
  oneFatal : (fatalRecords s.traces.diag).length = if s.sched.phase = .halted then 1 else 0

/-- A state at power-on (10_state.md rule R40): the fields that the rule gives a value. -/
abbrev State.powerOn (s : State) : Prop :=
  s.sched.phase = .boot ∧ s.sched.haltCode = none ∧ s.sched.armed = false ∧ s.sched.tickPending = false ∧
  s.sched.handlerBusy = false ∧ s.bus.stb = Strobes.off ∧ s.bus.activity = false ∧ s.traces.empty

/-- RUNNING, with a tick pending or able to arrive and no handler in progress: the next step takes a tick
(60_exceptions.md rules R155, R157). -/
abbrev State.takesTick (s : State) : Prop :=
  s.sched.phase = .running ∧ (s.sched.armed || s.sched.tickPending) = true ∧ s.sched.handlerBusy = false

/-- The next step fetches a command (40_interpreter_core.md rule R73). -/
abbrev State.fetches (s : State) : Prop := s.takesTick ∧ s.interp.delayCounter = 0

/-- The cursor after a command that leaves it at `c`: the end check (40_interpreter_core.md rule R74). -/
def Interp.wrapped (i : Interp) (c : Word) : Word := if c = i.endOffset then i.startOffset else c

/-- What a taken tick leaves alone besides a command's own effect: everything but the cursor, the delay, the
bus, the traces and the scheduler's tick bits (10_state.md rule R22). -/
abbrev State.sameButPlayback (s t : State) : Prop :=
  t.launch = s.launch ∧ t.config = s.config ∧
  t.interp.startOffset = s.interp.startOffset ∧ t.interp.loopOffset = s.interp.loopOffset ∧
  t.interp.endOffset = s.interp.endOffset ∧ t.interp.loopDefined = s.interp.loopDefined ∧
  t.traces.clock = s.traces.clock ∧ t.sched.tickHz = s.sched.tickHz ∧ t.sched.handlerBusy = false

/-- A step that keeps the machine RUNNING, the bus lines and every trace: what a wait, a skip, a jump and a
delay tick are on the outside. -/
abbrev State.quiet (s t : State) : Prop :=
  s.sameButPlayback t ∧ t.bus = s.bus ∧ t.traces = s.traces ∧ t.sched.phase = s.sched.phase ∧
  t.sched.haltCode = s.sched.haltCode ∧ t.sched.armed = s.sched.armed

/-- What every register write does beside its two transactions: three bytes passed, the indicator toggled, the
lines left at the data phase's values with the target's strobe deasserted; every other piece of state, and
every byte of the image, unchanged (42_chip_write.md, pseudocode of WR and BusTx). -/
abbrev State.writeEffect (s t : State) (target : Target) (sel : SelPair) (reg val : Byte) : Prop :=
  t.traces.bus = s.traces.bus ++ [⟨target, sel.reg, reg⟩, ⟨target, sel.data, val⟩] ∧
  t.interp = { s.interp with cursor := s.interp.cursor + 3 } ∧
  t.bus.data = val ∧ t.bus.sel = sel.data ∧ t.bus.activity = !s.bus.activity ∧
  t.bus.stb.get target = false ∧ (∀ u : Target, u ≠ target → t.bus.stb.get u = s.bus.stb.get u) ∧
  t.traces.diag = s.traces.diag ∧ t.traces.clock = s.traces.clock ∧
  t.launch = s.launch ∧ (∀ a : Word, t.fetch? a = s.fetch? a) ∧ t.config = s.config ∧ t.sched = s.sched ∧
  t.draws = s.draws

/-- The state with the tick schedule forgotten: the pending bit and the draw counter (40_interpreter_core.md rule
R79). -/
def State.forgetTicks (s : State) : State := { s with sched.tickPending := false, draws := 0 }

/-- An outcome with the tick schedule forgotten. -/
def forgetTicks : Result → Result
  | .next t => .next t.forgetTicks
  | .fault f => .fault f
  | .refused r => .refused r

/-- The strobe lines after pin events, from lines all deasserted. -/
def strobesAfter (l : List PinEvent) : Strobes := l.foldl Strobes.after Strobes.off

end Sys2Proof.Machine
end

