-- ==== Sys2Proof/Certificates/Slice0/Obligations.lean ====
section
/-! DEFINITION. The statements for the provers. Each docstring names the rule of spec/ that the statement
formalises, or the choice of the spec or the model that it rests on. -/
open Sys2Proof Sys2Proof.Machine

/-! ### Encoding -/

/-- Words of the default map written out byte by byte (30_encoding.md section 4; the opcode values are the
spec's general-knowledge default, log entry 5), for profile M, profile F, FM-A at 0x30 and SKIP_FULL. -/
def Obligations.WordsDecodeAsTheSpecWritesThem : Prop :=
  decode Params.profileM [0b01111010] = .ok (.waitS 10) [] ∧
  decode Params.profileM [0x61, 0x34, 0x12] = .ok (.waitN 0x1234) [] ∧
  decode Params.profileM [0x5A, 0x20, 0x01] = .ok (.wrFma2op 0x20 0x01) [] ∧
  decode { Params.profileM with fmaField := .at30 } [0x54, 0x08, 0x78] = .ok (.wrFmaOpm 0x08 0x78) [] ∧
  decode { Params.profileM with fmaField := .at30 } [0x5A, 0x08, 0x78] = .ok (.skipFm2op 0x08 0x78) [] ∧
  decode Params.profileM [0x5E, 0x01, 0x20] = .ok (.skipFmb0 0x01 0x20) [] ∧
  decode Params.profileF [0x5F, 0x05, 0x01] = .ok (.wrFmb1 0x05 0x01) [] ∧
  decode Params.profileF [0xBD, 0x9C, 0x03] = .ok (.wrPsg 0x9C 0x03) [] ∧
  decode Params.profileM [0x50, 0x9F, 0x66] = .ok (.skipSn 0x9F) [0x66] ∧
  decode Params.profileM [0x66] = .ok .loop [] ∧
  decode Params.profileM [0x67, 0x66] = .ok .dblk [0x66] ∧
  decode { Params.profileM with dataBlockMode := .skipFull } [0x67, 0x66, 0x00, 0x02, 0x01, 0x00, 0x00, 0xAA] =
    .ok (.dblkFull 0x66 0x00 0x00000102) [0xAA] ∧
  decode Params.profileM [0xE0, 0x10, 0x00, 0x02] = .ok (.bseek 0x10 0x00 0x02) [] ∧
  decode Params.profileM [0x8F, 0x12] = .ok (.unrec 0x8F) [0x12]

/-- Decoding the bytes of a well-formed command gives the command back and leaves what follows it, for every
opcode map that satisfies rule R66 and every operand. -/
def Obligations.DecodeOfEncodeIsTheCommand : Prop :=
  ∀ (p : Params) (i : Instr) (rest : List Byte), p.wf = true → i.wf p = true →
    decode p (encode p i ++ rest) = .ok i rest

/-- Whatever decodes is well formed: no byte sequence is read as a command of another profile, mode or class. -/
def Obligations.DecodedCommandsAreWellFormed : Prop :=
  ∀ (p : Params) (bs rest : List Byte) (i : Instr), decode p bs = .ok i rest → i.wf p = true

/-- How many bytes a command takes is known from its opcode's class, decoding takes exactly
those, and fails only where they are not all there (30_encoding.md sections 1 and 3; the operand counts of
skipped opcodes and of a SKIP_FULL block are the spec's general knowledge). -/
def Obligations.LengthIsFixedByTheOpcodesClass : Prop :=
  ∀ (p : Params) (op : Byte) (rest : List Byte),
    match decode p (op :: rest) with
    | .ok _ r =>
      p.operandBytes (p.classOf op) ≤ rest.length ∧ r = rest.drop (p.operandBytes (p.classOf op))
    | .error e => e = .missingOperand ∧ rest.length < p.operandBytes (p.classOf op)

/-- The default opcode map satisfies rule R66, and the default selector table rule R100, for every profile,
`FMA_FIELD` and data-block mode. -/
def Obligations.DefaultParametersAreWellFormed : Prop :=
  ∀ (pr : Profile) (f : FmaField) (m : DataBlockMode),
    ({ Params.ofProfile pr with fmaField := f, dataBlockMode := m } : Params).wf = true

/-- An opcode is of class WR for a port only if the port's driver is wired; the driver rows of
an unwired driver are of class SKIP2 (30_encoding.md section 2, 42_chip_write.md section 5; the wiring of a
profile is the spec's decision D3). -/
def Obligations.UnwiredDriversHaveNoWriteOpcode : Prop :=
  ∀ (p : Params),
    (∀ (op : Byte) (port : WrPort), p.classOf op = .wr port → p.profile.wired port.driver = true) ∧
    (p.profile.fma = false → ∀ r ∈ [MapRow.opm, .fm2op, .fm1op], p.rowClass r = .skip2) ∧
    (p.profile.fmb = false → ∀ r ∈ [MapRow.fmb0, .fmb1], p.rowClass r = .skip2) ∧
    (p.profile.psg = false → p.rowClass .psg = .skip2)

/-! ### What each command does: result, completion and frame

A meaning starts with the cursor at the opcode byte and the operands read (the model's choice, log entry 16). -/

/-- The four wait commands complete in every state: the delay count written, the opcode and operand bytes
passed, nothing else changed (the pseudocode of 41_wait.md). -/
def Obligations.WaitCommandsWriteTheDelayCounter : Prop :=
  ∀ (s : State),
    (∀ n : Nibble, exec (.waitS n) s = .next
      { s with interp := { s.interp with cursor := s.interp.cursor + 1, delayCounter := BitVec.ofNat 16 n.toNat } }) ∧
    (∀ c : Half, exec (.waitN c) s = .next
      { s with interp := { s.interp with cursor := s.interp.cursor + 3, delayCounter := c } }) ∧
    exec .wait735 s = .next
      { s with interp := { s.interp with cursor := s.interp.cursor + 1, delayCounter := 0x02DF } } ∧
    exec .wait882 s = .next
      { s with interp := { s.interp with cursor := s.interp.cursor + 1, delayCounter := 0x0372 } }

/-- The three WR.FMA commands complete in every state, register phase first, both to FM-A (the pseudocode of
`exec_WR` and `FMA_write`). -/
def Obligations.FmaWriteIsTwoTransactions : Prop :=
  ∀ (s : State) (reg val : Byte) (i : Instr),
    i = .wrFma2op reg val ∨ i = .wrFmaOpm reg val ∨ i = .wrFma1op reg val →
    ∃ t, exec i s = .next t ∧ s.writeEffect t .fma s.launch.params.sel.fma reg val

/-- WR.FMB0 and WR.FMB1 complete in every state, each with the selector pair of the port that the opcode fixes,
`reg` unmodified (the pseudocode of `exec_WR` and `FMB_write`). -/
def Obligations.FmbWriteUsesTheOpcodesPort : Prop :=
  ∀ (s : State) (reg val : Byte),
    (∃ t, exec (.wrFmb0 reg val) s = .next t ∧
      s.writeEffect t .fmb s.launch.params.sel.fmb0 reg val) ∧
    (∃ t, exec (.wrFmb1 reg val) s = .next t ∧
      s.writeEffect t .fmb s.launch.params.sel.fmb1 reg val)

/-- WR.PSG completes in every state: both phases go to the chip that bit 7 of `reg` selects, and the register
byte is cleared of bit 7 under `PSG_STRIP_BIT7` (the pseudocode of `exec_WR` and `PSG_write`). -/
def Obligations.PsgWriteGoesToOneChip : Prop :=
  ∀ (s : State) (reg val : Byte),
    ∃ t, exec (.wrPsg reg val) s = .next t ∧
      s.writeEffect t (if reg.getLsbD 7 then .psgB else .psgA) s.launch.params.sel.psg
        (if s.launch.params.psgStripBit7 then BitVec.ofNat 8 (reg.toNat % 128) else reg) val

/-- The ten skip commands and BSEEK complete in every state and change nothing but the cursor, past their
operand bytes (43_stream_control.md, pseudocode of SKIP and BSEEK). -/
def Obligations.SkipsChangeNothingButTheCursor : Prop :=
  ∀ (s : State) (a b c : Byte),
    (∀ i ∈ [Instr.skipGgst a, .skipSn a],
      exec i s = .next { s with interp := { s.interp with cursor := s.interp.cursor + 2 } }) ∧
    (∀ i ∈ [Instr.skipSf0 a b, .skipSf1 a b, .skipOpm a b, .skipFm2op a b, .skipFm1op a b, .skipFmb0 a b,
        .skipFmb1 a b, .skipPsg a b],
      exec i s = .next { s with interp := { s.interp with cursor := s.interp.cursor + 3 } }) ∧
    exec (.bseek a b c) s = .next { s with interp := { s.interp with cursor := s.interp.cursor + 4 } }

/-- DBLK in NOOP mode completes in every state and consumes the opcode alone (43_stream_control.md, the
source's behaviour). -/
def Obligations.DataBlockNoopConsumesTheOpcodeAlone : Prop :=
  ∀ s : State, exec .dblk s = .next { s with interp := { s.interp with cursor := s.interp.cursor + 1 } }

/-- DBLK in SKIP_FULL mode, run where its seven bytes lie in the image: with the payload in the image too, the
cursor passes all of it and nothing else changes; otherwise the block halts at the first offset past the
image, and no bus line or transaction changes (43_stream_control.md, SKIP_FULL).
The mode is the spec's decision D5; that a read outside the image halts is D21 (log entry 21). -/
def Obligations.DataBlockFullSkipsItsPayload : Prop :=
  ∀ (s : State) (compat type : Byte) (size : Word),
    s.interp.cursor.toNat + 7 ≤ s.launch.streamLength.toNat →
    (s.interp.cursor.toNat + 7 + size.toNat ≤ s.launch.streamLength.toNat →
      exec (.dblkFull compat type size) s = .next
        { s with interp := { s.interp with cursor := s.interp.cursor + 7 + size } }) ∧
    (s.launch.streamLength.toNat < s.interp.cursor.toNat + 7 + size.toNat →
      exec (.dblkFull compat type size) s = .next
        { s with
          interp := { s.interp with cursor := s.launch.streamLength }
          sched := { s.sched with phase := .halted, haltCode := some .e6, armed := false }
          traces := { s.traces with diag := s.traces.diag ++ [⟨.e6, .offset s.launch.streamLength⟩] } })

/-- LOOP completes in every state and writes only the cursor (43_stream_control.md, pseudocode of LOOP). -/
def Obligations.LoopJumpsToTheStoredTarget : Prop :=
  ∀ s : State,
    (s.interp.loopDefined = true →
      exec .loop s = .next { s with interp := { s.interp with cursor := s.interp.loopOffset } }) ∧
    (s.interp.loopDefined = false →
      exec .loop s = .next { s with interp := { s.interp with cursor := s.interp.startOffset } })

/-- An unrecognized opcode completes in every state: one record with the opcode and its offset, one byte passed,
nothing else changed, the machine still RUNNING if it was (43_stream_control.md, pseudocode of UNREC; the
record's content is the spec's decision D28). -/
def Obligations.UnrecognizedOpcodeIsLoggedAndPassed : Prop :=
  ∀ (s : State) (x : Byte), exec (.unrec x) s = .next
    { s with
      interp := { s.interp with cursor := s.interp.cursor + 1 }
      traces := { s.traces with diag := s.traces.diag ++ [⟨.e5, .opcode x s.interp.cursor⟩] } }

/-! ### Rules over all commands -/

/-- No command writes the image, a parameter, a boot-written register, the clock trace or the tick source
(10_state.md section 2, 20_memory.md section 1): the frame of every command. -/
def Obligations.NoCommandWritesBootStateOrImage : Prop :=
  ∀ (i : Instr) (s t : State), exec i s = .next t →
    (∀ a : Word, t.fetch? a = s.fetch? a) ∧ t.launch = s.launch ∧ t.config = s.config ∧
    t.interp.startOffset = s.interp.startOffset ∧ t.interp.loopOffset = s.interp.loopOffset ∧
    t.interp.endOffset = s.interp.endOffset ∧ t.interp.loopDefined = s.interp.loopDefined ∧
    t.traces.clock = s.traces.clock ∧ t.sched.tickPending = s.sched.tickPending ∧
    t.sched.handlerBusy = s.sched.handlerBusy ∧ t.sched.tickHz = s.sched.tickHz ∧ t.draws = s.draws

/-- Exactly one driver write, that is two transactions of one wired port's chip, per WR command, and no
other command touches the bus, the indicator or the bus trace (42_chip_write.md section 1; when the indicator
toggles is the spec's decision D35). -/
def Obligations.OnlyWriteCommandsDriveTheBus : Prop :=
  ∀ (i : Instr) (s t : State), exec i s = .next t →
    match i.wrPort with
    | some port =>
      ∃ r1 r2 : BusRecord, t.traces.bus = s.traces.bus ++ [r1, r2] ∧ r1.target = r2.target ∧
        r1.target.family = port.driver ∧ r1.sel = (s.launch.params.sel.at port).reg ∧
        r2.sel = (s.launch.params.sel.at port).data ∧ t.bus.activity = !s.bus.activity
    | none => t.traces.bus = s.traces.bus ∧ t.traces.pins = s.traces.pins ∧ t.bus = s.bus

/-- The delay counter is written by the waits alone, each with its own count (41_wait.md, the rule
on the counter's arithmetic, which the spec derives). -/
def Obligations.OnlyWaitCommandsWriteTheDelay : Prop :=
  ∀ (i : Instr) (s t : State), exec i s = .next t →
    t.interp.delayCounter = (match i.waitCount with | some c => c | none => s.interp.delayCounter)

/-- The commands of section 43 and 41 need no bus, and the permanent halt is entered only through a fatal
condition: a command that leaves the machine in another phase is the SKIP_FULL data block, with E6
(60_exceptions.md section 4, 43_stream_control.md last rule).
That a read outside the image halts is the spec's decision D21 (log entry 21). -/
def Obligations.OnlyAnOverrunHaltsACommand : Prop :=
  ∀ (i : Instr) (s t : State), exec i s = .next t → t.sched ≠ s.sched →
    (∃ c y size, i = .dblkFull c y size) ∧ t.sched.phase = .halted ∧ t.sched.haltCode = some .e6 ∧
    t.traces.bus = s.traces.bus

/-! ### The interpreter's step -/

/-- A taken tick with no delay left runs the command that the bytes at the cursor decode to: the handler is
entered, `exec` runs, the end check follows unless the command halted, the handler is left
(40_interpreter_core.md section 1, 60_exceptions.md section 3). The model's choices in it: that all bytes are
read before `exec` starts at the opcode (log entry 16), that a tick inside the handler is a free value taken at
its entry (log entry 9), and that the handler is left after a command that halts too (log entry 14). -/
def Obligations.StepRunsTheDecodedCommand : Prop :=
  ∀ (s : State) (i : Instr) (rest : List Byte),
    s.fetches → decode s.launch.params s.window = .ok i rest →
    step s = leaveHandler (afterCommand (exec i s.enterHandler))

/-- Rule R72: a delay tick. -/
def Obligations.DelayTickDecrementsByOne : Prop :=
  ∀ s : State, s.takesTick → 0 < s.interp.delayCounter →
    ∃ t, step s = .next t ∧ t.interp = { s.interp with delayCounter := s.interp.delayCounter - 1 } ∧
      t.interp.delayCounter.toNat + 1 = s.interp.delayCounter.toNat ∧ s.quiet t

/-- A delay of `d` passes in exactly `d` steps, whatever the tick schedule: after `k ≤ d` steps the counter is
`d - k`, the cursor has not moved, and no trace or line has changed (40_interpreter_core.md section 3). -/
def Obligations.DelayPassesInItsCountOfSteps : Prop :=
  ∀ (s : State) (k : Nat), s.sched.phase = .running → s.sched.armed = true → s.sched.handlerBusy = false →
    k ≤ s.interp.delayCounter.toNat →
    ∃ t : State, core.run k s = .next t ∧ t.interp.delayCounter.toNat + k = s.interp.delayCounter.toNat ∧
      t.interp.cursor = s.interp.cursor ∧ t.bus = s.bus ∧ t.traces = s.traces ∧ t.sched.phase = .running ∧
      t.sched.armed = true ∧ t.sched.handlerBusy = false

/-- Rule R80, for a byte of class WAITS at the cursor under any opcode map. -/
def Obligations.ShortWaitTakesTheOpcodesNibble : Prop :=
  ∀ (s : State) (op : Byte), s.fetches → s.fetch? s.interp.cursor = some op →
    s.launch.params.classOf op = .waits →
    ∃ t, step s = .next t ∧ t.interp.delayCounter = (op &&& 0x0F).zeroExtend 16 ∧
      t.interp.cursor = s.interp.wrapped (s.interp.cursor + 1) ∧ s.quiet t

/-- For a byte of class WAITN at the cursor: with both operands in the image the count is little-endian and occupies
one tick more than itself on an armed machine (41_wait.md, WAIT.N). With an operand outside the image: HALTED
with E6 and its record at the first such offset, the delay not written; that such a read halts is the spec's
decision D21 (log entry 21; 40_interpreter_core.md section 2, 60_exceptions.md section 1). -/
def Obligations.LongWaitReadsALittleEndianCount : Prop :=
  ∀ (s : State) (op : Byte), s.fetches → s.fetch? s.interp.cursor = some op →
    s.launch.params.classOf op = .waitn →
    (∀ lo hi : Byte, s.fetch? (s.interp.cursor + 1) = some lo → s.fetch? (s.interp.cursor + 2) = some hi →
      (∃ t, step s = .next t ∧ t.interp.delayCounter.toNat = lo.toNat + 256 * hi.toNat ∧
        t.interp.cursor = s.interp.wrapped (s.interp.cursor + 3) ∧ s.quiet t) ∧
      (s.sched.armed = true → ∀ k : Nat, k ≤ lo.toNat + 256 * hi.toNat →
        ∃ u : State, core.run (k + 1) s = .next u ∧
          u.interp.delayCounter.toNat = lo.toNat + 256 * hi.toNat - k ∧
          u.interp.cursor = s.interp.wrapped (s.interp.cursor + 3) ∧ u.traces = s.traces ∧ u.bus = s.bus)) ∧
    (s.launch.streamLength.toNat ≤ s.interp.cursor.toNat + 2 →
      ∃ t, step s = .next t ∧ t.sched.phase = .halted ∧ t.sched.haltCode = some .e6 ∧
        t.interp.delayCounter = 0 ∧ t.traces.diag = s.traces.diag ++ [⟨.e6, .offset s.launch.streamLength⟩] ∧
        t.interp.cursor = s.launch.streamLength)

/-- Rules R82, R83, for a byte of class WAIT735 or WAIT882 at the cursor of an armed machine: the count is
written, one byte is consumed, and the next command is fetched 736 or 883 ticks after this one. -/
def Obligations.FixedWaitsTake736And883Ticks : Prop :=
  ∀ (s : State) (op : Byte) (count : Nat), s.fetches → s.sched.armed = true →
    s.fetch? s.interp.cursor = some op →
    (s.launch.params.classOf op = .wait735 ∧ count = 735) ∨ (s.launch.params.classOf op = .wait882 ∧ count = 882) →
    (∃ t, step s = .next t ∧ t.interp.delayCounter.toNat = count ∧
      t.interp.cursor = s.interp.wrapped (s.interp.cursor + 1) ∧ s.quiet t) ∧
    (∀ k : Nat, k ≤ count → ∃ u : State, core.run (k + 1) s = .next u ∧ u.interp.delayCounter.toNat = count - k ∧
      u.interp.cursor = s.interp.wrapped (s.interp.cursor + 1) ∧ u.traces = s.traces ∧ u.bus = s.bus)

/-- For a byte of class LOOP at the cursor of an armed machine: the jump, then the end check, and nothing else
(43_stream_control.md, LOOP). A target outside the image halts the next step, not this one, with E6 and its
record at the target; that such a read halts is the spec's decision D21 (log entry 21; 40_interpreter_core.md
section 2, 60_exceptions.md section 1). -/
def Obligations.LoopOpcodeJumpsThenWraps : Prop :=
  ∀ (s : State) (op : Byte), s.fetches → s.sched.armed = true → s.fetch? s.interp.cursor = some op →
    s.launch.params.classOf op = .loop →
    ∃ t, step s = .next t ∧ s.quiet t ∧ t.interp.delayCounter = 0 ∧
      (s.interp.loopDefined = true → t.interp.cursor = s.interp.wrapped s.interp.loopOffset) ∧
      (s.interp.loopDefined = false → t.interp.cursor = s.interp.startOffset) ∧
      (s.launch.streamLength ≤ t.interp.cursor →
        ∃ u, step t = .next u ∧ u.sched.phase = .halted ∧ u.sched.haltCode = some .e6 ∧
          u.traces.diag = s.traces.diag ++ [⟨.e6, .offset t.interp.cursor⟩])

/-- For a byte of class BANKSEEK at the cursor: three operands discarded (43_stream_control.md, BSEEK). With one of
them outside the image: HALTED with E6 and its record at the first such offset; that such a read halts is the
spec's decision D21 (log entry 21; 40_interpreter_core.md section 2, 60_exceptions.md section 1). -/
def Obligations.BankSeekDiscardsThreeBytes : Prop :=
  ∀ (s : State) (op : Byte), s.fetches → s.fetch? s.interp.cursor = some op →
    s.launch.params.classOf op = .bankSeek →
    (s.interp.cursor.toNat + 3 < s.launch.streamLength.toNat →
      ∃ t, step s = .next t ∧ t.interp.cursor = s.interp.wrapped (s.interp.cursor + 4) ∧
        t.interp.delayCounter = 0 ∧ s.quiet t) ∧
    (s.launch.streamLength.toNat ≤ s.interp.cursor.toNat + 3 →
      ∃ t, step s = .next t ∧ t.sched.phase = .halted ∧ t.sched.haltCode = some .e6 ∧
        t.traces.diag = s.traces.diag ++ [⟨.e6, .offset s.launch.streamLength⟩])

/-- For a byte of class UNREC at the cursor: it does not trap and does not halt, it is logged once as E5 with its
offset, and one byte is consumed (30_encoding.md section 2; record content: the spec's decision D28). -/
def Obligations.UnrecognizedOpcodeDoesNotHalt : Prop :=
  ∀ (s : State) (op : Byte), s.fetches → s.fetch? s.interp.cursor = some op →
    s.launch.params.classOf op = .unrec →
    ∃ t, step s = .next t ∧ t.sched.phase = .running ∧ t.sched.armed = s.sched.armed ∧
      t.sched.haltCode = s.sched.haltCode ∧ t.interp.cursor = s.interp.wrapped (s.interp.cursor + 1) ∧
      t.interp.delayCounter = 0 ∧ t.bus = s.bus ∧ t.traces.bus = s.traces.bus ∧
      t.traces.diag = s.traces.diag ++ [⟨.e5, .opcode op s.interp.cursor⟩]

/-- Rule R74, over every command of every class: after a command that does not halt, a cursor equal to `endOffset`
becomes `startOffset`, whether or not a loop is defined, and any other cursor stays; so a fetching step rests
at `endOffset` only where that is `startOffset` too. The check changes nothing else. -/
def Obligations.EndCheckFollowsEveryCommand : Prop :=
  ∀ (s u : State) (i : Instr) (rest : List Byte), s.fetches →
    decode s.launch.params s.window = .ok i rest → exec i s.enterHandler = .next u → u.sched.phase = .running →
    ∃ t, step s = .next t ∧
      t.interp = { u.interp with
        cursor := if u.interp.cursor = s.interp.endOffset then s.interp.startOffset else u.interp.cursor } ∧
      (t.interp.cursor = s.interp.endOffset → s.interp.startOffset = s.interp.endOffset) ∧
      t.bus = u.bus ∧ t.traces = u.traces ∧ t.config = u.config ∧ t.launch = u.launch ∧
      t.sched = { u.sched with handlerBusy := false }

/-- Rule R121: a fetching step moves the cursor to the command's successor, or to the loop or start offset held
in the interpreter state; a command other than LOOP reaches the start offset only by the end wrap. -/
def Obligations.OnlyLoopAndTheEndWrapTransferControl : Prop :=
  ∀ (s t : State) (i : Instr) (rest : List Byte), s.fetches →
    decode s.launch.params s.window = .ok i rest → step s = .next t → t.sched.phase = .running →
    (i ≠ .loop → t.interp.cursor = s.interp.wrapped (s.interp.cursor + BitVec.ofNat 32 i.length)) ∧
    (i = .loop → t.interp.cursor = s.interp.loopOffset ∨ t.interp.cursor = s.interp.startOffset)

/-- A read outside the image halts the block at the failing read, before any other effect of the command: no
transaction, no delay written, no toggle (40_interpreter_core.md section 2; the halt itself is the spec's
decision D21). `n` is the command's operand count; with the cursor itself outside the image the opcode read
fails. -/
def Obligations.AnOverrunHaltsBeforeAnyEffect : Prop :=
  ∀ s : State, s.fetches →
    (∀ op : Byte, s.fetch? s.interp.cursor = some op →
      s.launch.streamLength.toNat ≤ s.interp.cursor.toNat + s.launch.params.operandBytes (s.launch.params.classOf op) →
      ∃ t, step s = .next t ∧ t.interp = { s.interp with cursor := s.launch.streamLength } ∧ t.bus = s.bus ∧
        t.traces = { s.traces with diag := s.traces.diag ++ [⟨.e6, .offset s.launch.streamLength⟩] } ∧
        t.sched.phase = .halted ∧ t.sched.haltCode = some .e6 ∧ t.sched.armed = false) ∧
    (s.fetch? s.interp.cursor = none →
      ∃ t, step s = .next t ∧ t.interp = s.interp ∧ t.bus = s.bus ∧
        t.traces = { s.traces with diag := s.traces.diag ++ [⟨.e6, .offset s.interp.cursor⟩] } ∧
        t.sched.phase = .halted ∧ t.sched.haltCode = some .e6 ∧ t.sched.armed = false)

/-- The fetch, decode and dispatch of the machine are the class-by-class pseudocode of `step()` with one
`NextByte()` after another (40_interpreter_core.md sections 1 and 2), for every opcode map, profile and mode.
That reads come before effects and that a read outside the image halts are the spec's decisions D36 and D21;
the model's one fetch of all bytes is log entry 16. -/
def Obligations.TheMachineStepIsThePseudocode : Prop :=
  ∀ s : State, s.sched.phase = .running → interpStep s = .next (refStep s)

/-- The payload skip of a SKIP_FULL data block is `size` discarded `NextByte()` reads, wherever it stops
(43_stream_control.md, SKIP_FULL; 40_interpreter_core.md section 2).
The closed form is log entry 17; that a read outside the image halts is the spec's decision D21. -/
def Obligations.PayloadSkipIsThatManyByteReads : Prop :=
  ∀ (s : State) (n : Nat),
    s.skipBytes n = (match refSkip n s with | .ok t => t | .error h => h)

/-- What a step does depends on the tick schedule in nothing but the pending bit: two armed, running machines
that differ in the pending bit and the draws alone have the same runs, up to that bit and the draws
(40_interpreter_core.md section 3).
When a tick arrives is a free value (log entry 9). -/
def Obligations.TicksDecideOnlyWhen : Prop :=
  ∀ (n : Nat) (s t : State), s.sched.phase = .running → s.sched.armed = true → s.sched.handlerBusy = false →
    s.forgetTicks = t.forgetTicks → forgetTicks (core.run n s) = forgetTicks (core.run n t)

/-! ### Invariants -/

/-- The invariant holds at power-on.
The zeros that reset gives to unspecified registers are the model's choice (log
entries 6 and 7); the invariant does not depend on them. -/
def Obligations.ResetMeetsTheInvariant : Prop := State.reset.Inv

/-- Every step keeps the invariant: the image's form, the scheduler's bits, strobes deasserted and lines held
between transactions, the indicator's parity, wired strobes only, boot-written registers and clock requests,
at most one fatal record. That no handler is busy between steps holds in HALTED by the model's choice (log
entry 14); that the lines hold their values is the spec's decision D19; the image's form is log entry 2, the pin
trace log entry 12. -/
def Obligations.StepKeepsTheInvariant : Prop := ∀ s t : State, s.Inv → step s = .next t → t.Inv

/-- No step writes the image, `streamLength` or a parameter; after boot no step writes a header register, a chip
configuration, an interpreter offset or the tick source's frequency (10_state.md sections 1, 2 and 5).
That parameters and image stand in State is the model's choice (log entries 1 and 2), as are the
fields clockOut and tickHz (log entry 19). -/
def Obligations.BootWrittenStateIsImmutable : Prop :=
  ∀ s t : State, step s = .next t →
    t.launch = s.launch ∧ (∀ a : Word, t.fetch? a = s.fetch? a) ∧
    (s.sched.phase = .running →
      t.config = s.config ∧ t.interp.startOffset = s.interp.startOffset ∧
      t.interp.loopOffset = s.interp.loopOffset ∧ t.interp.endOffset = s.interp.endOffset ∧
      t.interp.loopDefined = s.interp.loopDefined ∧ t.traces.clock = s.traces.clock ∧
      t.sched.tickHz = s.sched.tickHz)

/-- No trace ever loses an entry (10_state.md section 5): what it held is a prefix of what it holds after any step. -/
def Obligations.TracesOnlyGrow : Prop :=
  ∀ s t : State, step s = .next t →
    s.traces.bus <+: t.traces.bus ∧ s.traces.diag <+: t.traces.diag ∧ s.traces.clock <+: t.traces.clock

/-- Whatever transactions the bus has performed, at no pin event inside them is more than one strobe asserted,
and after the last one none is (10_state.md section 4).
The pin events are the model's own record (log entry 12). -/
def Obligations.AtMostOneStrobeAtAnyInstant : Prop :=
  ∀ (l : List BusRecord) (n : Nat),
    (strobesAfter ((l.flatMap BusRecord.pins).take n)).count ≤ 1 ∧
    strobesAfter (l.flatMap BusRecord.pins) = Strobes.off

/-! ### The bus -/

/-- A transaction's events, in the order of the pseudocode of `BusTx`: data and selector driven, setup wait,
assert, pulse wait, deassert, hold and recovery waits (42_chip_write.md section 3).
The hold times are the spec's decisions D17 and D18; the pin trace is the model's own (log entry 12). -/
def Obligations.BusTransactionFollowsItsSequence : Prop :=
  ∀ (s : State) (t : Target) (sel : Sel) (byte : Byte),
    (s.busTx t sel byte).traces.pins = s.traces.pins ++
      [.drive byte sel, .wait .setup t.family, .strobeOn t, .wait .pulse t.family, .strobeOff t,
       .wait .hold t.family, .wait .recovery t.family] ∧
    (s.busTx t sel byte).traces.bus = s.traces.bus ++ [⟨t, sel, byte⟩] ∧
    (s.busTx t sel byte).bus.data = byte ∧ (s.busTx t sel byte).bus.sel = sel ∧
    (s.busTx t sel byte).bus.stb.get t = false ∧ (s.busTx t sel byte).bus.activity = s.bus.activity

/-- A driver write appends two transactions of its chip, the register phase with the register byte first and the
data phase with the value byte second, each with the phase's value of the `SEL` table (42_chip_write.md
sections 2 and 4). For FM-A and FM-B every `reg` and `val` goes out unmodified. That the PSG's register byte
loses bit 7 under `PSG_STRIP_BIT7` is the spec's decision D14. Nothing but the bus and its traces changes. -/
def Obligations.DriverWritesAreRegisterPhaseThenDataPhase : Prop :=
  ∀ (s : State) (reg val : Byte),
    let sel := s.launch.params.sel
    (s.fmaWrite reg val).traces.bus = s.traces.bus ++ [⟨.fma, sel.fma.reg, reg⟩, ⟨.fma, sel.fma.data, val⟩] ∧
    (s.fmb0Write reg val).traces.bus = s.traces.bus ++ [⟨.fmb, sel.fmb0.reg, reg⟩, ⟨.fmb, sel.fmb0.data, val⟩] ∧
    (s.fmb1Write reg val).traces.bus = s.traces.bus ++ [⟨.fmb, sel.fmb1.reg, reg⟩, ⟨.fmb, sel.fmb1.data, val⟩] ∧
    (s.psgWrite reg val).traces.bus = s.traces.bus ++
      [⟨psgTarget reg, sel.psg.reg, if s.launch.params.psgStripBit7 then BitVec.ofNat 8 (reg.toNat % 128) else reg⟩,
        ⟨psgTarget reg, sel.psg.data, val⟩] ∧
    (∀ t ∈ [s.fmaWrite reg val, s.fmb0Write reg val, s.fmb1Write reg val, s.psgWrite reg val],
      t.interp = s.interp ∧ t.launch = s.launch ∧ t.config = s.config ∧ t.sched = s.sched ∧ t.draws = s.draws ∧
      t.bus.activity = s.bus.activity ∧ t.traces.diag = s.traces.diag ∧ t.traces.clock = s.traces.clock)

/-- The bus time of a register write is twice the setup, pulse, hold and recovery times of its family
(70_reset_and_hazards.md section 2), whatever those OPEN times are.
The sum runs over the model's own pin trace (log entry 12). -/
def Obligations.WriteTimeIsTwoTransactions : Prop :=
  ∀ (i : Instr) (port : WrPort) (s t : State), i.wrPort = some port → exec i s = .next t →
    pinMicros t.traces.pins = pinMicros s.traces.pins +
      2 * (Config.holdMicros .setup port.driver + Config.holdMicros .pulse port.driver +
        Config.holdMicros .hold port.driver + Config.holdMicros .recovery port.driver)

/-- Rule R106: the instance is bit 7 of the register byte. -/
def Obligations.PsgInstanceIsTheTopBit : Prop :=
  ∀ reg : Byte, (128 ≤ reg.toNat → psgTarget reg = .psgB) ∧ (reg.toNat < 128 → psgTarget reg = .psgA)

/-- The default selector table: port 1 of FM-B is port 0 with A1 set, the two phases of every port differ in A0
alone, and A1 is 0 elsewhere (42_chip_write.md section 3; the A0 levels are the spec's general-knowledge
default). -/
def Obligations.DefaultSelectorLines : Prop :=
  defaultSel.fmb1.reg = defaultSel.fmb0.reg ||| 0b10 ∧ defaultSel.fmb1.data = defaultSel.fmb0.data ||| 0b10 ∧
  (∀ port : WrPort, (defaultSel.at port).reg ^^^ (defaultSel.at port).data = 0b01) ∧
  (∀ port : WrPort, (defaultSel.at port).reg &&& 0b10 = (if port = .fmb1 then 0b10 else 0b00)) ∧
  defaultSel.fma.reg = 0b00 ∧ defaultSel.fmb0.reg = 0b00 ∧ defaultSel.psg.reg = 0b01

/-! ### Header accessors -/

/-- The clock is bits 29 to 0 of the gated word, the dual flag its bit 30, and a chip is present exactly when its clock
is not 0; below the field's minimum version none of them is set (44_header_parser.md sections 1 and 2). That
every field is gated, and not the dual-PSG and data-start fields alone, is the spec's decision D8 (log entry 21). -/
def Obligations.ClockWordFields : Prop :=
  ∀ (p : Params) (h : Header) (f : HdrField),
    (clockOf p h f).toNat = (gated p h f).toNat % 2 ^ 30 ∧
    (isDual p h f = true ↔ (gated p h f).toNat / 2 ^ 30 % 2 = 1) ∧
    (isPresent p h f = true ↔ (gated p h f).toNat % 2 ^ 30 ≠ 0) ∧
    (p.minVersion f ≤ h.version → gated p h f = h.get f) ∧
    (h.version < p.minVersion f → clockOf p h f = 0 ∧ isDual p h f = false ∧ isPresent p h f = false)

/-- Rule R141: with bit 31 flipped in any of the seven clock words, every clock, dual flag and presence, the
validation and every clock request are the same. -/
def Obligations.AlternateModeBitIsIgnored : Prop :=
  ∀ (p : Params) (h : Header) (flip : HdrField → Bool),
    let g : HdrField → Word := fun f => if flip f = true then h.get f ^^^ 0x80000000 else h.get f
    let h' : Header := { h with
      clk0C := g .clk0C, clk2C := g .clk2C, clk30 := g .clk30, clk50 := g .clk50, clk54 := g .clk54
      clk5C := g .clk5C, clkC8 := g .clkC8 }
    (∀ f : HdrField, clockOf p h' f = clockOf p h f ∧ isDual p h' f = isDual p h f ∧
      isPresent p h' f = isPresent p h f) ∧
    dualOffender p h' = dualOffender p h ∧ (∀ d : Driver, requestHz p h' d = requestHz p h d)

/-- A field reads as 0 below its minimum version and as itself from it on; the default gates are those of
44_header_parser.md section 1 (0x0110 and 0x0151 are the spec's general knowledge). -/
def Obligations.FieldsAreGatedByVersion : Prop :=
  (∀ (p : Params) (h : Header) (f : HdrField),
    (h.version < p.minVersion f → gated p h f = 0) ∧ (p.minVersion f ≤ h.version → gated p h f = h.get f)) ∧
  (∀ pr : Profile,
    (∀ f ∈ [HdrField.eofRel, .version, .clk0C, .sampleCount, .loopRel], (Params.ofProfile pr).minVersion f = 0) ∧
    (∀ f ∈ [HdrField.clk2C, .clk30], (Params.ofProfile pr).minVersion f = 0x0110) ∧
    (Params.ofProfile pr).minVersion .dataRel = 0x0150 ∧
    (∀ f ∈ [HdrField.clk50, .clk54, .clk5C], (Params.ofProfile pr).minVersion f = 0x0151) ∧
    (Params.ofProfile pr).minVersion .clkC8 = 0x0171)

/-- Rule R142: below version 0x0150 the word at 0x34 is not used, whatever its value. -/
def Obligations.LegacyStartIgnoresTheStartField : Prop :=
  ∀ (p : Params) (h : Header) (w : Word), h.version < 0x0150 →
    startOffsetOf p { h with dataRel := w } = startOffsetOf p h ∧ startOffsetOf p h = p.legacyStart

/-- The start offset under the default parameters: 0x40 below version 0x0150, the field plus 0x34 from it on
(44_header_parser.md section 2; the sum modulo 2^32 is the spec's decision D20). -/
def Obligations.StartOffsetByVersion : Prop :=
  ∀ (pr : Profile) (h : Header),
    (h.version < 0x0150 → startOffsetOf (Params.ofProfile pr) h = 0x40) ∧
    (0x0150 ≤ h.version →
      (startOffsetOf (Params.ofProfile pr) h).toNat = (h.dataRel.toNat + 0x34) % 2 ^ 32)

/-- The loop target, the loop sentinel (a relative value of 0, that is a target of 0x1C) and the end offset
(10_state.md section 2, 44_header_parser.md section 2). That the sums are modulo 2^32 is the spec's decision D20
(log entry 21). -/
def Obligations.LoopAndEndOffsets : Prop :=
  ∀ h : Header,
    (loopOffsetOf h).toNat = (h.loopRel.toNat + 0x1C) % 2 ^ 32 ∧
    (loopDefinedOf h = true ↔ h.loopRel ≠ 0) ∧ (loopDefinedOf h = true ↔ loopOffsetOf h ≠ 0x1C) ∧
    (endOffsetOf h).toNat = (h.eofRel.toNat + 4) % 2 ^ 32

/-- The song length in samples and in seconds at the default sample rate, rounded down (44_header_parser.md
section 2; the rounding is the spec's decision D29). -/
def Obligations.SongLength : Prop :=
  ∀ (pr : Profile) (h : Header),
    lengthSamples h = h.sampleCount.toNat ∧
    lengthSeconds (Params.ofProfile pr) h * 44100 ≤ h.sampleCount.toNat ∧
    h.sampleCount.toNat < (lengthSeconds (Params.ofProfile pr) h + 1) * 44100

/-! ### Boot, halt and tick -/

/-- What the spec gives the machine at power-on (10_state.md section 7; D19 and D25 are the spec's decisions). The
registers that it leaves unspecified are not claimed. -/
def Obligations.PowerOnState : Prop := State.reset.powerOn

/-- A boot that nothing fails, from any power-on state, arms the machine in the state of 10_state.md section 7
(the spec's decision D25): cursor at the start, no delay, offsets of the header, RUNNING and armed, no bus
transaction; every header register is the little-endian word of its offset, or 0 past the header buffer.
The header buffer is the spec's decision D9; the constants of the configuration record
log entry 18; the field tickHz log entry 19. -/
def Obligations.BootArmsTheMachineAtTheStart : Prop :=
  ∀ s : State, s.powerOn → (s.launch.params.profile.source = .memory ∨ s.launch.sourceResult = .ready) →
    s.launch.params.minHeaderSize ≤ s.launch.streamLength →
    dualOffender s.launch.params s.launch.header = none →
    ∃ t, step s = .next t ∧ t.config.hdr = s.launch.header ∧
      (∀ f : HdrField, (t.config.hdr.get f).toNat =
        if f.offset + 4 ≤ min s.launch.streamLength.toNat s.launch.params.hdrBufLen then
          (s.launch.image.read f.offset).toNat + 2 ^ 8 * (s.launch.image.read (f.offset + 1)).toNat +
            2 ^ 16 * (s.launch.image.read (f.offset + 2)).toNat + 2 ^ 24 * (s.launch.image.read (f.offset + 3)).toNat
        else 0) ∧
      t.interp = { cursor := startOffsetOf s.launch.params t.config.hdr, delayCounter := 0
                   startOffset := startOffsetOf s.launch.params t.config.hdr
                   loopOffset := loopOffsetOf t.config.hdr, endOffset := endOffsetOf t.config.hdr
                   loopDefined := loopDefinedOf t.config.hdr } ∧
      t.config.dualRouting = isDual s.launch.params t.config.hdr .clkC8 ∧
      t.sched.phase = .running ∧ t.sched.haltCode = none ∧ t.sched.armed = true ∧ t.sched.tickPending = false ∧
      t.sched.handlerBusy = false ∧ t.sched.tickHz = s.launch.params.tickHz ∧ t.bus.stb = Strobes.off ∧
      t.bus.activity = false ∧ t.bus.data = s.bus.data ∧ t.bus.sel = s.bus.sel ∧ t.traces.bus = [] ∧
      t.traces.clock.map ClockRecord.driver = driversOf s.launch.params.profile ∧
      (∀ d : Driver, s.launch.params.profile.wired d = true →
        t.config.cfg.get d =
          { clockHz := chipHz s.launch.params t.config.hdr d, pulseWidthMicros := Config.holdMicros .pulse d
            addressWidth := d.addressWidth }) ∧
      t.launch = s.launch

/-- One driver's `clockInit` (44_header_parser.md section 4): `clockHz` is the header's clock where the chip is present
and the OPEN default elsewhere, the request is `CLK_DIV` times that, it is recorded with the achieved frequency,
and one record E4 is appended exactly where the two differ. The chip clock output is programmed to the achieved
frequency, and nothing else changes. The choice of frequency is the spec's decision D30; that the achieved
frequency is a constant of the draw's number is log entry 10, that the whole configuration record is written
here log entry 18, the register for the output log entry 19. -/
def Obligations.ClockInitRequestsAndWarns : Prop :=
  ∀ (s : State) (d : Driver),
    let p := s.launch.params
    let field := p.chipField d
    let hz := if isPresent p s.config.hdr field = true then (clockOf p s.config.hdr field).toNat
      else Config.chipDefaultHz d
    let req := hz * Config.clkDiv d
    let achieved := Config.achievedHz s.draws req
    let t := s.clockInit d
    t.traces.clock = s.traces.clock ++ [⟨d, req, achieved⟩] ∧
    t.traces.diag = s.traces.diag ++ (if achieved = req then [] else [⟨.e4, .clock d req achieved⟩]) ∧
    t.config.cfg.get d =
      { clockHz := hz, pulseWidthMicros := Config.holdMicros .pulse d, addressWidth := d.addressWidth } ∧
    (∀ e : Driver, e ≠ d → t.config.cfg.get e = s.config.cfg.get e) ∧
    t.config.clockOut.get d = achieved ∧
    (∀ e : Driver, e ≠ d → t.config.clockOut.get e = s.config.clockOut.get e) ∧
    t.config.hdr = s.config.hdr ∧ t.config.dualRouting = s.config.dualRouting ∧
    t.interp = s.interp ∧ t.bus = s.bus ∧ t.sched = s.sched ∧ t.launch = s.launch ∧
    t.traces.bus = s.traces.bus ∧ t.traces.pins = s.traces.pins ∧ t.draws = s.draws + 1

/-- A boot halts at its first failing step and runs no later one: E2 where a file source fails, else E1 with the
length where the image is too short, else E3 with the lowest offending offset; nothing is armed, no clock is
requested and no transaction is performed (60_exceptions.md section 3, 70_reset_and_hazards.md section 1,
44_header_parser.md section 3; the checked set is the spec's decision D12).
The minimum size is the spec's decision D9, the order of the steps D26; the outcome
of the source is a launch input (log entry 15). -/
def Obligations.BootHaltsAtTheFirstFailure : Prop :=
  ∀ s : State, s.powerOn →
    (∀ op : IoOp, s.launch.params.profile.source = .file → s.launch.sourceResult = .failed op →
      step s = .next (s.fatal .e2 (.operation op))) ∧
    ((s.launch.params.profile.source = .memory ∨ s.launch.sourceResult = .ready) →
      s.launch.streamLength < s.launch.params.minHeaderSize →
      step s = .next (s.fatal .e1 (.length s.launch.streamLength))) ∧
    (∀ f : HdrField, (s.launch.params.profile.source = .memory ∨ s.launch.sourceResult = .ready) →
      s.launch.params.minHeaderSize ≤ s.launch.streamLength →
      f ∈ s.launch.params.dualChecked → isDual s.launch.params s.launch.header f = true →
      (∀ g ∈ s.launch.params.dualChecked, isDual s.launch.params s.launch.header g = true → f.offset ≤ g.offset) →
      step s = .next ({ s with config := { s.config with hdr := s.launch.header } }.fatal .e3 (.field f.offset)))

/-- The permanent halt: one record, the code, HALTED, disarmed, and nothing else changed
(60_exceptions.md section 2; what the halt does to the outputs is the spec's decision D31).
That a halt is a next state is log entry 13. -/
def Obligations.FatalEntersThePermanentHalt : Prop :=
  ∀ (s : State) (code : ErrCode) (info : DiagInfo),
    s.fatal code info =
      { s with
        sched := { s.sched with phase := .halted, haltCode := some code, armed := false }
        traces := { s.traces with diag := s.traces.diag ++ [⟨code, info⟩] } }

/-- Nothing leaves HALTED (60_exceptions.md section 2). That a step of a HALTED machine is the fault `halted` is the
model's reading (log entry 13); that a firing of the tick source while disarmed leaves the machine unchanged is
the spec's decision D24 (60_exceptions.md section 3; log entry 21). -/
def Obligations.HaltedIsFinal : Prop :=
  ∀ s : State, s.sched.phase = .halted →
    step s = .fault .halted ∧ s.tickFires.sched.phase = .halted ∧ (s.sched.armed = false → s.tickFires = s)

/-- Every step that enters HALTED appends exactly one fatal record, with the halt code, and performs no bus
transaction (60_exceptions.md section 2 and its rule of simultaneous events).
What the halt does to the outputs and the tick is the spec's decision D31, that a read outside the image halts
D21; that a halt is a next state is log entry 13. -/
def Obligations.AHaltIsPrecise : Prop :=
  ∀ s t : State, step s = .next t → t.sched.phase = .halted →
    t.traces.bus = s.traces.bus ∧ t.traces.pins = s.traces.pins ∧ t.bus = s.bus ∧ t.traces.clock = s.traces.clock ∧
    t.sched.armed = false ∧
    ∃ r : DiagRecord, t.traces.diag = s.traces.diag ++ [r] ∧ t.sched.haltCode = some r.code ∧ r.code.fatal = true

/-- A firing of the tick source is taken only while armed, and is not queued (60_exceptions.md section 3; the one
pending bit is the spec's decision D24). -/
def Obligations.TicksAreNotQueued : Prop :=
  ∀ s : State,
    (s.sched.armed = false → s.tickFires = s) ∧
    (s.sched.armed = true → s.tickFires = { s with sched := { s.sched with tickPending := true } }) ∧
    (s.sched.tickPending = true → s.tickFires = s) ∧ s.tickFires.tickFires = s.tickFires

/-- The handler runs once, in a taken tick, when it may start: exactly one `step()` between entry and exit, and it
does not nest; otherwise no step runs (60_exceptions.md section 3). The model's choices in it: that the busy bit
is cleared after a `step()` that halts too (log entry 14), and what a step is in a RUNNING state that no run
reaches, with a handler busy or with nothing armed or pending (log entry 25). -/
def Obligations.TheHandlerRunsOneStep : Prop :=
  ∀ s : State,
    (s.takesTick → ∃ t, interpStep s.enterHandler = .next t ∧
      step s = .next { t with sched := { t.sched with handlerBusy := false } }) ∧
    (s.sched.phase = .running → s.sched.handlerBusy = true → step s = .next s.tickFires) ∧
    (s.sched.phase = .running → s.sched.armed = false → s.sched.tickPending = false → step s = .next s)
end

