-- ==== Sys2Proof/Laws/State.lean ====
section
/-! SUPPORT. What every shared update leaves in every piece of State: one lemma per field it may touch, and one
for each group of fields it leaves alone. All are true by rfl, so no later proof unfolds a record update. -/
namespace Sys2Proof.Machine.State

/-! `setCursor` (R14) -/

@[simp] theorem setCursor_launch (s : State) (v : Word) : (s.setCursor v).launch = s.launch := rfl
@[simp] theorem setCursor_interp_cursor (s : State) (v : Word) : (s.setCursor v).interp.cursor = v := rfl
@[simp] theorem setCursor_interp_delayCounter (s : State) (v : Word) :
    (s.setCursor v).interp.delayCounter = s.interp.delayCounter := rfl
@[simp] theorem setCursor_interp_startOffset (s : State) (v : Word) :
    (s.setCursor v).interp.startOffset = s.interp.startOffset := rfl
@[simp] theorem setCursor_interp_loopOffset (s : State) (v : Word) :
    (s.setCursor v).interp.loopOffset = s.interp.loopOffset := rfl
@[simp] theorem setCursor_interp_endOffset (s : State) (v : Word) :
    (s.setCursor v).interp.endOffset = s.interp.endOffset := rfl
@[simp] theorem setCursor_interp_loopDefined (s : State) (v : Word) :
    (s.setCursor v).interp.loopDefined = s.interp.loopDefined := rfl
@[simp] theorem setCursor_bus (s : State) (v : Word) : (s.setCursor v).bus = s.bus := rfl
@[simp] theorem setCursor_config (s : State) (v : Word) : (s.setCursor v).config = s.config := rfl
@[simp] theorem setCursor_sched (s : State) (v : Word) : (s.setCursor v).sched = s.sched := rfl
@[simp] theorem setCursor_traces (s : State) (v : Word) : (s.setCursor v).traces = s.traces := rfl
@[simp] theorem setCursor_draws (s : State) (v : Word) : (s.setCursor v).draws = s.draws := rfl

/-! `advance` (R25) -/

@[simp] theorem advance_launch (s : State) (n : Nat) : (s.advance n).launch = s.launch := rfl
@[simp] theorem advance_interp_cursor (s : State) (n : Nat) :
    (s.advance n).interp.cursor = s.interp.cursor + BitVec.ofNat 32 n := rfl
@[simp] theorem advance_interp_delayCounter (s : State) (n : Nat) :
    (s.advance n).interp.delayCounter = s.interp.delayCounter := rfl
@[simp] theorem advance_interp_startOffset (s : State) (n : Nat) :
    (s.advance n).interp.startOffset = s.interp.startOffset := rfl
@[simp] theorem advance_interp_loopOffset (s : State) (n : Nat) :
    (s.advance n).interp.loopOffset = s.interp.loopOffset := rfl
@[simp] theorem advance_interp_endOffset (s : State) (n : Nat) :
    (s.advance n).interp.endOffset = s.interp.endOffset := rfl
@[simp] theorem advance_interp_loopDefined (s : State) (n : Nat) :
    (s.advance n).interp.loopDefined = s.interp.loopDefined := rfl
@[simp] theorem advance_bus (s : State) (n : Nat) : (s.advance n).bus = s.bus := rfl
@[simp] theorem advance_config (s : State) (n : Nat) : (s.advance n).config = s.config := rfl
@[simp] theorem advance_sched (s : State) (n : Nat) : (s.advance n).sched = s.sched := rfl
@[simp] theorem advance_traces (s : State) (n : Nat) : (s.advance n).traces = s.traces := rfl
@[simp] theorem advance_draws (s : State) (n : Nat) : (s.advance n).draws = s.draws := rfl

/-! `setDelay` (R80) -/

@[simp] theorem setDelay_launch (s : State) (v : Half) : (s.setDelay v).launch = s.launch := rfl
@[simp] theorem setDelay_interp_cursor (s : State) (v : Half) : (s.setDelay v).interp.cursor = s.interp.cursor := rfl
@[simp] theorem setDelay_interp_delayCounter (s : State) (v : Half) : (s.setDelay v).interp.delayCounter = v := rfl
@[simp] theorem setDelay_interp_startOffset (s : State) (v : Half) :
    (s.setDelay v).interp.startOffset = s.interp.startOffset := rfl
@[simp] theorem setDelay_interp_loopOffset (s : State) (v : Half) :
    (s.setDelay v).interp.loopOffset = s.interp.loopOffset := rfl
@[simp] theorem setDelay_interp_endOffset (s : State) (v : Half) :
    (s.setDelay v).interp.endOffset = s.interp.endOffset := rfl
@[simp] theorem setDelay_interp_loopDefined (s : State) (v : Half) :
    (s.setDelay v).interp.loopDefined = s.interp.loopDefined := rfl
@[simp] theorem setDelay_bus (s : State) (v : Half) : (s.setDelay v).bus = s.bus := rfl
@[simp] theorem setDelay_config (s : State) (v : Half) : (s.setDelay v).config = s.config := rfl
@[simp] theorem setDelay_sched (s : State) (v : Half) : (s.setDelay v).sched = s.sched := rfl
@[simp] theorem setDelay_traces (s : State) (v : Half) : (s.setDelay v).traces = s.traces := rfl
@[simp] theorem setDelay_draws (s : State) (v : Half) : (s.setDelay v).draws = s.draws := rfl

/-! `endCheck` (R74) -/

@[simp] theorem endCheck_launch (s : State) : (s.endCheck).launch = s.launch := rfl
@[simp] theorem endCheck_interp_cursor (s : State) :
    (s.endCheck).interp.cursor = if s.interp.cursor = s.interp.endOffset then s.interp.startOffset else s.interp.cursor := rfl
@[simp] theorem endCheck_interp_delayCounter (s : State) :
    (s.endCheck).interp.delayCounter = s.interp.delayCounter := rfl
@[simp] theorem endCheck_interp_startOffset (s : State) :
    (s.endCheck).interp.startOffset = s.interp.startOffset := rfl
@[simp] theorem endCheck_interp_loopOffset (s : State) : (s.endCheck).interp.loopOffset = s.interp.loopOffset := rfl
@[simp] theorem endCheck_interp_endOffset (s : State) : (s.endCheck).interp.endOffset = s.interp.endOffset := rfl
@[simp] theorem endCheck_interp_loopDefined (s : State) :
    (s.endCheck).interp.loopDefined = s.interp.loopDefined := rfl
@[simp] theorem endCheck_bus (s : State) : (s.endCheck).bus = s.bus := rfl
@[simp] theorem endCheck_config (s : State) : (s.endCheck).config = s.config := rfl
@[simp] theorem endCheck_sched (s : State) : (s.endCheck).sched = s.sched := rfl
@[simp] theorem endCheck_traces (s : State) : (s.endCheck).traces = s.traces := rfl
@[simp] theorem endCheck_draws (s : State) : (s.endCheck).draws = s.draws := rfl

/-! `emit` (R17) -/

@[simp] theorem emit_launch (s : State) (c : ErrCode) (i : DiagInfo) : (s.emit c i).launch = s.launch := rfl
@[simp] theorem emit_interp (s : State) (c : ErrCode) (i : DiagInfo) : (s.emit c i).interp = s.interp := rfl
@[simp] theorem emit_bus (s : State) (c : ErrCode) (i : DiagInfo) : (s.emit c i).bus = s.bus := rfl
@[simp] theorem emit_config (s : State) (c : ErrCode) (i : DiagInfo) : (s.emit c i).config = s.config := rfl
@[simp] theorem emit_sched (s : State) (c : ErrCode) (i : DiagInfo) : (s.emit c i).sched = s.sched := rfl
@[simp] theorem emit_traces_bus (s : State) (c : ErrCode) (i : DiagInfo) :
    (s.emit c i).traces.bus = s.traces.bus := rfl
@[simp] theorem emit_traces_pins (s : State) (c : ErrCode) (i : DiagInfo) :
    (s.emit c i).traces.pins = s.traces.pins := rfl
@[simp] theorem emit_traces_diag (s : State) (c : ErrCode) (i : DiagInfo) :
    (s.emit c i).traces.diag = s.traces.diag ++ [⟨c, i⟩] := rfl
@[simp] theorem emit_traces_clock (s : State) (c : ErrCode) (i : DiagInfo) :
    (s.emit c i).traces.clock = s.traces.clock := rfl
@[simp] theorem emit_draws (s : State) (c : ErrCode) (i : DiagInfo) : (s.emit c i).draws = s.draws := rfl

/-! `fatal` (R150) -/

@[simp] theorem fatal_launch (s : State) (c : ErrCode) (i : DiagInfo) : (s.fatal c i).launch = s.launch := rfl
@[simp] theorem fatal_interp (s : State) (c : ErrCode) (i : DiagInfo) : (s.fatal c i).interp = s.interp := rfl
@[simp] theorem fatal_bus (s : State) (c : ErrCode) (i : DiagInfo) : (s.fatal c i).bus = s.bus := rfl
@[simp] theorem fatal_config (s : State) (c : ErrCode) (i : DiagInfo) : (s.fatal c i).config = s.config := rfl
@[simp] theorem fatal_sched_phase (s : State) (c : ErrCode) (i : DiagInfo) :
    (s.fatal c i).sched.phase = .halted := rfl
@[simp] theorem fatal_sched_haltCode (s : State) (c : ErrCode) (i : DiagInfo) :
    (s.fatal c i).sched.haltCode = some c := rfl
@[simp] theorem fatal_sched_armed (s : State) (c : ErrCode) (i : DiagInfo) : (s.fatal c i).sched.armed = false := rfl
@[simp] theorem fatal_sched_tickPending (s : State) (c : ErrCode) (i : DiagInfo) :
    (s.fatal c i).sched.tickPending = s.sched.tickPending := rfl
@[simp] theorem fatal_sched_handlerBusy (s : State) (c : ErrCode) (i : DiagInfo) :
    (s.fatal c i).sched.handlerBusy = s.sched.handlerBusy := rfl
@[simp] theorem fatal_sched_tickHz (s : State) (c : ErrCode) (i : DiagInfo) :
    (s.fatal c i).sched.tickHz = s.sched.tickHz := rfl
@[simp] theorem fatal_traces_bus (s : State) (c : ErrCode) (i : DiagInfo) :
    (s.fatal c i).traces.bus = s.traces.bus := rfl
@[simp] theorem fatal_traces_pins (s : State) (c : ErrCode) (i : DiagInfo) :
    (s.fatal c i).traces.pins = s.traces.pins := rfl
@[simp] theorem fatal_traces_diag (s : State) (c : ErrCode) (i : DiagInfo) :
    (s.fatal c i).traces.diag = s.traces.diag ++ [⟨c, i⟩] := rfl
@[simp] theorem fatal_traces_clock (s : State) (c : ErrCode) (i : DiagInfo) :
    (s.fatal c i).traces.clock = s.traces.clock := rfl
@[simp] theorem fatal_draws (s : State) (c : ErrCode) (i : DiagInfo) : (s.fatal c i).draws = s.draws := rfl

/-! `overrun` (R76) -/

@[simp] theorem overrun_launch (s : State) (a : Word) : (s.overrun a).launch = s.launch := rfl
@[simp] theorem overrun_interp_cursor (s : State) (a : Word) : (s.overrun a).interp.cursor = a := rfl
@[simp] theorem overrun_interp_delayCounter (s : State) (a : Word) :
    (s.overrun a).interp.delayCounter = s.interp.delayCounter := rfl
@[simp] theorem overrun_interp_startOffset (s : State) (a : Word) :
    (s.overrun a).interp.startOffset = s.interp.startOffset := rfl
@[simp] theorem overrun_interp_loopOffset (s : State) (a : Word) :
    (s.overrun a).interp.loopOffset = s.interp.loopOffset := rfl
@[simp] theorem overrun_interp_endOffset (s : State) (a : Word) :
    (s.overrun a).interp.endOffset = s.interp.endOffset := rfl
@[simp] theorem overrun_interp_loopDefined (s : State) (a : Word) :
    (s.overrun a).interp.loopDefined = s.interp.loopDefined := rfl
@[simp] theorem overrun_bus (s : State) (a : Word) : (s.overrun a).bus = s.bus := rfl
@[simp] theorem overrun_config (s : State) (a : Word) : (s.overrun a).config = s.config := rfl
@[simp] theorem overrun_sched_phase (s : State) (a : Word) : (s.overrun a).sched.phase = .halted := rfl
@[simp] theorem overrun_sched_haltCode (s : State) (a : Word) : (s.overrun a).sched.haltCode = some .e6 := rfl
@[simp] theorem overrun_sched_armed (s : State) (a : Word) : (s.overrun a).sched.armed = false := rfl
@[simp] theorem overrun_sched_tickPending (s : State) (a : Word) :
    (s.overrun a).sched.tickPending = s.sched.tickPending := rfl
@[simp] theorem overrun_sched_handlerBusy (s : State) (a : Word) :
    (s.overrun a).sched.handlerBusy = s.sched.handlerBusy := rfl
@[simp] theorem overrun_sched_tickHz (s : State) (a : Word) : (s.overrun a).sched.tickHz = s.sched.tickHz := rfl
@[simp] theorem overrun_traces_bus (s : State) (a : Word) : (s.overrun a).traces.bus = s.traces.bus := rfl
@[simp] theorem overrun_traces_pins (s : State) (a : Word) : (s.overrun a).traces.pins = s.traces.pins := rfl
@[simp] theorem overrun_traces_diag (s : State) (a : Word) :
    (s.overrun a).traces.diag = s.traces.diag ++ [⟨.e6, .offset a⟩] := rfl
@[simp] theorem overrun_traces_clock (s : State) (a : Word) : (s.overrun a).traces.clock = s.traces.clock := rfl
@[simp] theorem overrun_draws (s : State) (a : Word) : (s.overrun a).draws = s.draws := rfl

/-! `busTx` (R98) -/

@[simp] theorem busTx_launch (s : State) (t : Target) (l : Sel) (b : Byte) : (s.busTx t l b).launch = s.launch := rfl
@[simp] theorem busTx_interp (s : State) (t : Target) (l : Sel) (b : Byte) : (s.busTx t l b).interp = s.interp := rfl
@[simp] theorem busTx_bus_data (s : State) (t : Target) (l : Sel) (b : Byte) : (s.busTx t l b).bus.data = b := rfl
@[simp] theorem busTx_bus_sel (s : State) (t : Target) (l : Sel) (b : Byte) : (s.busTx t l b).bus.sel = l := rfl
@[simp] theorem busTx_bus_stb (s : State) (t : Target) (l : Sel) (b : Byte) :
    (s.busTx t l b).bus.stb = (s.bus.stb.set t true).set t false := rfl
@[simp] theorem busTx_bus_activity (s : State) (t : Target) (l : Sel) (b : Byte) :
    (s.busTx t l b).bus.activity = s.bus.activity := rfl
@[simp] theorem busTx_config (s : State) (t : Target) (l : Sel) (b : Byte) : (s.busTx t l b).config = s.config := rfl
@[simp] theorem busTx_sched (s : State) (t : Target) (l : Sel) (b : Byte) : (s.busTx t l b).sched = s.sched := rfl
@[simp] theorem busTx_traces_bus (s : State) (t : Target) (l : Sel) (b : Byte) :
    (s.busTx t l b).traces.bus = s.traces.bus ++ [⟨t, l, b⟩] := rfl
@[simp] theorem busTx_traces_pins (s : State) (t : Target) (l : Sel) (b : Byte) :
    (s.busTx t l b).traces.pins = s.traces.pins ++ BusRecord.pins ⟨t, l, b⟩ := rfl
@[simp] theorem busTx_traces_diag (s : State) (t : Target) (l : Sel) (b : Byte) :
    (s.busTx t l b).traces.diag = s.traces.diag := rfl
@[simp] theorem busTx_traces_clock (s : State) (t : Target) (l : Sel) (b : Byte) :
    (s.busTx t l b).traces.clock = s.traces.clock := rfl
@[simp] theorem busTx_draws (s : State) (t : Target) (l : Sel) (b : Byte) : (s.busTx t l b).draws = s.draws := rfl

/-! `twoPhase` (R93) -/

@[simp] theorem twoPhase_launch (s : State) (t : Target) (p : SelPair) (r v : Byte) : (s.twoPhase t p r v).launch = s.launch := rfl
@[simp] theorem twoPhase_interp (s : State) (t : Target) (p : SelPair) (r v : Byte) : (s.twoPhase t p r v).interp = s.interp := rfl
@[simp] theorem twoPhase_bus_data (s : State) (t : Target) (p : SelPair) (r v : Byte) :
    (s.twoPhase t p r v).bus.data = v := rfl
@[simp] theorem twoPhase_bus_sel (s : State) (t : Target) (p : SelPair) (r v : Byte) :
    (s.twoPhase t p r v).bus.sel = p.data := rfl
@[simp] theorem twoPhase_bus_stb (s : State) (t : Target) (p : SelPair) (r v : Byte) :
    (s.twoPhase t p r v).bus.stb = (((s.bus.stb.set t true).set t false).set t true).set t false := rfl
@[simp] theorem twoPhase_bus_activity (s : State) (t : Target) (p : SelPair) (r v : Byte) :
    (s.twoPhase t p r v).bus.activity = s.bus.activity := rfl
@[simp] theorem twoPhase_config (s : State) (t : Target) (p : SelPair) (r v : Byte) : (s.twoPhase t p r v).config = s.config := rfl
@[simp] theorem twoPhase_sched (s : State) (t : Target) (p : SelPair) (r v : Byte) : (s.twoPhase t p r v).sched = s.sched := rfl
@[simp] theorem twoPhase_traces_bus (s : State) (t : Target) (p : SelPair) (r v : Byte) :
    (s.twoPhase t p r v).traces.bus = s.traces.bus ++ [⟨t, p.reg, r⟩, ⟨t, p.data, v⟩] := by
  simp [twoPhase]
@[simp] theorem twoPhase_traces_pins (s : State) (t : Target) (p : SelPair) (r v : Byte) :
    (s.twoPhase t p r v).traces.pins = s.traces.pins ++ BusRecord.pins ⟨t, p.reg, r⟩ ++ BusRecord.pins ⟨t, p.data, v⟩ := by
  simp [twoPhase]
@[simp] theorem twoPhase_traces_diag (s : State) (t : Target) (p : SelPair) (r v : Byte) :
    (s.twoPhase t p r v).traces.diag = s.traces.diag := rfl
@[simp] theorem twoPhase_traces_clock (s : State) (t : Target) (p : SelPair) (r v : Byte) :
    (s.twoPhase t p r v).traces.clock = s.traces.clock := rfl
@[simp] theorem twoPhase_draws (s : State) (t : Target) (p : SelPair) (r v : Byte) : (s.twoPhase t p r v).draws = s.draws := rfl

/-! `toggleActivity` (R92) -/

@[simp] theorem toggleActivity_launch (s : State) : (s.toggleActivity).launch = s.launch := rfl
@[simp] theorem toggleActivity_interp (s : State) : (s.toggleActivity).interp = s.interp := rfl
@[simp] theorem toggleActivity_bus_data (s : State) : (s.toggleActivity).bus.data = s.bus.data := rfl
@[simp] theorem toggleActivity_bus_sel (s : State) : (s.toggleActivity).bus.sel = s.bus.sel := rfl
@[simp] theorem toggleActivity_bus_stb (s : State) : (s.toggleActivity).bus.stb = s.bus.stb := rfl
@[simp] theorem toggleActivity_bus_activity (s : State) : (s.toggleActivity).bus.activity = !s.bus.activity := rfl
@[simp] theorem toggleActivity_config (s : State) : (s.toggleActivity).config = s.config := rfl
@[simp] theorem toggleActivity_sched (s : State) : (s.toggleActivity).sched = s.sched := rfl
@[simp] theorem toggleActivity_traces (s : State) : (s.toggleActivity).traces = s.traces := rfl
@[simp] theorem toggleActivity_draws (s : State) : (s.toggleActivity).draws = s.draws := rfl

/-! `setOffsets` (R144) -/

@[simp] theorem setOffsets_launch (s : State) : (s.setOffsets).launch = s.launch := rfl
@[simp] theorem setOffsets_interp_cursor (s : State) : (s.setOffsets).interp.cursor = s.interp.cursor := rfl
@[simp] theorem setOffsets_interp_delayCounter (s : State) :
    (s.setOffsets).interp.delayCounter = s.interp.delayCounter := rfl
@[simp] theorem setOffsets_interp_startOffset (s : State) :
    (s.setOffsets).interp.startOffset = startOffsetOf s.launch.params s.config.hdr := rfl
@[simp] theorem setOffsets_interp_loopOffset (s : State) :
    (s.setOffsets).interp.loopOffset = loopOffsetOf s.config.hdr := rfl
@[simp] theorem setOffsets_interp_endOffset (s : State) :
    (s.setOffsets).interp.endOffset = endOffsetOf s.config.hdr := rfl
@[simp] theorem setOffsets_interp_loopDefined (s : State) :
    (s.setOffsets).interp.loopDefined = loopDefinedOf s.config.hdr := rfl
@[simp] theorem setOffsets_bus (s : State) : (s.setOffsets).bus = s.bus := rfl
@[simp] theorem setOffsets_config (s : State) : (s.setOffsets).config = s.config := rfl
@[simp] theorem setOffsets_sched (s : State) : (s.setOffsets).sched = s.sched := rfl
@[simp] theorem setOffsets_traces (s : State) : (s.setOffsets).traces = s.traces := rfl
@[simp] theorem setOffsets_draws (s : State) : (s.setOffsets).draws = s.draws := rfl

/-! `initOutputs` (R171) -/

@[simp] theorem initOutputs_launch (s : State) : (s.initOutputs).launch = s.launch := rfl
@[simp] theorem initOutputs_interp_cursor (s : State) : (s.initOutputs).interp.cursor = s.interp.startOffset := rfl
@[simp] theorem initOutputs_interp_delayCounter (s : State) : (s.initOutputs).interp.delayCounter = 0 := rfl
@[simp] theorem initOutputs_interp_startOffset (s : State) :
    (s.initOutputs).interp.startOffset = s.interp.startOffset := rfl
@[simp] theorem initOutputs_interp_loopOffset (s : State) :
    (s.initOutputs).interp.loopOffset = s.interp.loopOffset := rfl
@[simp] theorem initOutputs_interp_endOffset (s : State) :
    (s.initOutputs).interp.endOffset = s.interp.endOffset := rfl
@[simp] theorem initOutputs_interp_loopDefined (s : State) :
    (s.initOutputs).interp.loopDefined = s.interp.loopDefined := rfl
@[simp] theorem initOutputs_bus_data (s : State) : (s.initOutputs).bus.data = s.bus.data := rfl
@[simp] theorem initOutputs_bus_sel (s : State) : (s.initOutputs).bus.sel = s.bus.sel := rfl
@[simp] theorem initOutputs_bus_stb (s : State) : (s.initOutputs).bus.stb = Strobes.off := rfl
@[simp] theorem initOutputs_bus_activity (s : State) : (s.initOutputs).bus.activity = false := rfl
@[simp] theorem initOutputs_config (s : State) : (s.initOutputs).config = s.config := rfl
@[simp] theorem initOutputs_sched (s : State) : (s.initOutputs).sched = s.sched := rfl
@[simp] theorem initOutputs_traces (s : State) : (s.initOutputs).traces = s.traces := rfl
@[simp] theorem initOutputs_draws (s : State) : (s.initOutputs).draws = s.draws := rfl

/-! `arm` (R154) -/

@[simp] theorem arm_launch (s : State) : (s.arm).launch = s.launch := rfl
@[simp] theorem arm_interp (s : State) : (s.arm).interp = s.interp := rfl
@[simp] theorem arm_bus (s : State) : (s.arm).bus = s.bus := rfl
@[simp] theorem arm_config (s : State) : (s.arm).config = s.config := rfl
@[simp] theorem arm_sched_phase (s : State) : (s.arm).sched.phase = .running := rfl
@[simp] theorem arm_sched_haltCode (s : State) : (s.arm).sched.haltCode = s.sched.haltCode := rfl
@[simp] theorem arm_sched_armed (s : State) : (s.arm).sched.armed = true := rfl
@[simp] theorem arm_sched_tickPending (s : State) : (s.arm).sched.tickPending = s.sched.tickPending := rfl
@[simp] theorem arm_sched_handlerBusy (s : State) : (s.arm).sched.handlerBusy = s.sched.handlerBusy := rfl
@[simp] theorem arm_sched_tickHz (s : State) : (s.arm).sched.tickHz = s.launch.params.tickHz := rfl
@[simp] theorem arm_traces (s : State) : (s.arm).traces = s.traces := rfl
@[simp] theorem arm_draws (s : State) : (s.arm).draws = s.draws := rfl

/-! `tickFires` (R155) -/

@[simp] theorem tickFires_launch (s : State) : (s.tickFires).launch = s.launch := rfl
@[simp] theorem tickFires_interp (s : State) : (s.tickFires).interp = s.interp := rfl
@[simp] theorem tickFires_bus (s : State) : (s.tickFires).bus = s.bus := rfl
@[simp] theorem tickFires_config (s : State) : (s.tickFires).config = s.config := rfl
@[simp] theorem tickFires_sched_phase (s : State) : (s.tickFires).sched.phase = s.sched.phase := rfl
@[simp] theorem tickFires_sched_haltCode (s : State) : (s.tickFires).sched.haltCode = s.sched.haltCode := rfl
@[simp] theorem tickFires_sched_armed (s : State) : (s.tickFires).sched.armed = s.sched.armed := rfl
@[simp] theorem tickFires_sched_tickPending (s : State) :
    (s.tickFires).sched.tickPending = (s.sched.armed || s.sched.tickPending) := rfl
@[simp] theorem tickFires_sched_handlerBusy (s : State) : (s.tickFires).sched.handlerBusy = s.sched.handlerBusy := rfl
@[simp] theorem tickFires_sched_tickHz (s : State) : (s.tickFires).sched.tickHz = s.sched.tickHz := rfl
@[simp] theorem tickFires_traces (s : State) : (s.tickFires).traces = s.traces := rfl
@[simp] theorem tickFires_draws (s : State) : (s.tickFires).draws = s.draws := rfl

/-! `enterHandler` (R157) -/

@[simp] theorem enterHandler_launch (s : State) : (s.enterHandler).launch = s.launch := rfl
@[simp] theorem enterHandler_interp (s : State) : (s.enterHandler).interp = s.interp := rfl
@[simp] theorem enterHandler_bus (s : State) : (s.enterHandler).bus = s.bus := rfl
@[simp] theorem enterHandler_config (s : State) : (s.enterHandler).config = s.config := rfl
@[simp] theorem enterHandler_sched_phase (s : State) : (s.enterHandler).sched.phase = s.sched.phase := rfl
@[simp] theorem enterHandler_sched_haltCode (s : State) : (s.enterHandler).sched.haltCode = s.sched.haltCode := rfl
@[simp] theorem enterHandler_sched_armed (s : State) : (s.enterHandler).sched.armed = s.sched.armed := rfl
@[simp] theorem enterHandler_sched_tickPending (s : State) :
    (s.enterHandler).sched.tickPending = (s.sched.armed && Config.tickDuringHandler s.draws) := rfl
@[simp] theorem enterHandler_sched_handlerBusy (s : State) : (s.enterHandler).sched.handlerBusy = true := rfl
@[simp] theorem enterHandler_sched_tickHz (s : State) : (s.enterHandler).sched.tickHz = s.sched.tickHz := rfl
@[simp] theorem enterHandler_traces (s : State) : (s.enterHandler).traces = s.traces := rfl
@[simp] theorem enterHandler_draws (s : State) : (s.enterHandler).draws = s.draws + 1 := rfl

/-! `exitHandler` (R157) -/

@[simp] theorem exitHandler_launch (s : State) : (s.exitHandler).launch = s.launch := rfl
@[simp] theorem exitHandler_interp (s : State) : (s.exitHandler).interp = s.interp := rfl
@[simp] theorem exitHandler_bus (s : State) : (s.exitHandler).bus = s.bus := rfl
@[simp] theorem exitHandler_config (s : State) : (s.exitHandler).config = s.config := rfl
@[simp] theorem exitHandler_sched_phase (s : State) : (s.exitHandler).sched.phase = s.sched.phase := rfl
@[simp] theorem exitHandler_sched_haltCode (s : State) : (s.exitHandler).sched.haltCode = s.sched.haltCode := rfl
@[simp] theorem exitHandler_sched_armed (s : State) : (s.exitHandler).sched.armed = s.sched.armed := rfl
@[simp] theorem exitHandler_sched_tickPending (s : State) :
    (s.exitHandler).sched.tickPending = s.sched.tickPending := rfl
@[simp] theorem exitHandler_sched_handlerBusy (s : State) : (s.exitHandler).sched.handlerBusy = false := rfl
@[simp] theorem exitHandler_sched_tickHz (s : State) : (s.exitHandler).sched.tickHz = s.sched.tickHz := rfl
@[simp] theorem exitHandler_traces (s : State) : (s.exitHandler).traces = s.traces := rfl
@[simp] theorem exitHandler_draws (s : State) : (s.exitHandler).draws = s.draws := rfl

end Sys2Proof.Machine.State
end

