-- ==== Sys2Proof/Laws/Ops.lean ====
section
/-! SUPPORT. What each shared operation can do, said once: reads of the song image, the byte window of a fetch,
the payload skip, the fetch of a command, the end check, the handler. -/
namespace Sys2Proof.Machine

theorem fetch?_some {s : State} {a : Word} (h : a.toNat < s.launch.streamLength.toNat) :
    s.fetch? a = some (s.launch.image.read a.toNat) := by
  simp [State.fetch?, BitVec.lt_def, h]

theorem fetch?_none {s : State} {a : Word} (h : s.launch.streamLength.toNat ≤ a.toNat) : s.fetch? a = none := by
  simp [State.fetch?, BitVec.lt_def, h]

theorem fetch?_isSome_iff {s : State} {a : Word} :
    (s.fetch? a).isSome = true ↔ a.toNat < s.launch.streamLength.toNat := by
  by_cases h : a.toNat < s.launch.streamLength.toNat
  · simp [fetch?_some h, h]
  · simp [fetch?_none (Nat.le_of_not_lt h), h]

/-- Reading depends on the launch inputs alone (20_memory.md rule R58). -/
theorem fetch?_congr {s t : State} (h : t.launch = s.launch) (a : Word) : t.fetch? a = s.fetch? a := by
  simp [State.fetch?, h]

theorem readable_congr {s t : State} (h : t.launch = s.launch) (a : Word) (n : Nat) :
    t.readable a n = s.readable a n := by
  induction n generalizing a with
  | zero => rfl
  | succ n ih => simp only [State.readable, fetch?_congr h, ih]

theorem window_congr {s t : State} (h : t.launch = s.launch) (hc : t.interp.cursor = s.interp.cursor) :
    t.window = s.window := by
  simp only [State.window, hc, readable_congr h]

/-- The offset after a readable one does not wrap (10_state.md rule R25). -/
theorem toNat_add_one_of_lt {a b : Word} (h : a.toNat < b.toNat) : (a + 1).toNat = a.toNat + 1 := by
  have := b.isLt
  have one : (1 : Word).toNat = 1 := rfl
  simp only [BitVec.toNat_add, one]
  omega

theorem nextByte_ok {s : State} {b : Byte} (h : s.fetch? s.interp.cursor = some b) :
    nextByte s = .ok (b, s.setCursor (s.interp.cursor + 1)) := by
  simp [nextByte, h]

theorem nextByte_error {s : State} (h : s.fetch? s.interp.cursor = none) :
    nextByte s = .error (s.overrun s.interp.cursor) := by
  simp [nextByte, h]

theorem readable_succ_some {s : State} {a : Word} {b : Byte} (n : Nat) (h : s.fetch? a = some b) :
    s.readable a (n + 1) = b :: s.readable (a + 1) n := by
  simp [State.readable, h]

theorem readable_succ_none {s : State} {a : Word} (n : Nat) (h : s.fetch? a = none) :
    s.readable a (n + 1) = [] := by
  simp [State.readable, h]

/-- How many of `n` reads from `a` succeed: those below `streamLength`. -/
theorem readable_length (s : State) (a : Word) (n : Nat) :
    (s.readable a n).length = min n (s.launch.streamLength.toNat - a.toNat) := by
  induction n generalizing a with
  | zero => simp [State.readable]
  | succ n ih =>
    by_cases h : a.toNat < s.launch.streamLength.toNat
    · rw [readable_succ_some n (fetch?_some h), List.length_cons, ih, toNat_add_one_of_lt h]
      omega
    · rw [readable_succ_none n (fetch?_none (Nat.le_of_not_lt h))]
      simp only [List.length_nil]
      omega

/-- A payload skip ends past the payload, or in a halt at the first offset outside the image. -/
theorem skipBytes_cases (s : State) (n : Nat) :
    ((n = 0 ∨ s.interp.cursor.toNat + n ≤ s.launch.streamLength.toNat) ∧ s.skipBytes n = s.advance n) ∨
    (s.interp.cursor.toNat < s.launch.streamLength.toNat ∧
      s.launch.streamLength.toNat < s.interp.cursor.toNat + n ∧
      s.skipBytes n = s.overrun s.launch.streamLength) ∨
    (n ≠ 0 ∧ s.launch.streamLength.toNat ≤ s.interp.cursor.toNat ∧
      s.skipBytes n = s.overrun s.interp.cursor) := by
  unfold State.skipBytes
  split
  · exact .inl ⟨‹_›, rfl⟩
  · next h =>
    rw [not_or] at h
    split
    · next hlt => exact .inr (.inl ⟨hlt, by omega, rfl⟩)
    · next hlt => exact .inr (.inr ⟨h.1, Nat.le_of_not_lt hlt, rfl⟩)

/-- A fetch gives the decoded command, or the halt at the failing read. -/
theorem fetchInstr_cases (s : State) :
    (∃ i rest, decode s.launch.params s.window = .ok i rest ∧ fetchInstr s = .ok i) ∨
    (∃ e, decode s.launch.params s.window = .error e ∧
      fetchInstr s = .error (s.overrun (s.interp.cursor + BitVec.ofNat 32 s.window.length))) := by
  unfold fetchInstr
  cases h : decode s.launch.params s.window with
  | ok i rest => exact .inl ⟨i, rest, rfl, rfl⟩
  | error e => exact .inr ⟨e, rfl, rfl⟩

theorem afterCommand_running {t : State} (h : t.sched.phase = .running) :
    afterCommand (.next t) = .next t.endCheck := by
  simp [afterCommand, h]

theorem afterCommand_halted {t : State} (h : t.sched.phase ≠ .running) : afterCommand (.next t) = .next t := by
  simp [afterCommand, h]

/-- One step of `step()`: a delay tick, a command, or a halt at a failing read. -/
theorem interpStep_delay {s : State} (h : 0 < s.interp.delayCounter) :
    interpStep s = .next (s.setDelay (s.interp.delayCounter - 1)) := by
  rw [interpStep, if_pos h]

theorem interpStep_command {s : State} {i : Instr} (hd : s.interp.delayCounter = 0) (h : fetchInstr s = .ok i) :
    interpStep s = afterCommand (exec i s) := by
  simp [interpStep, hd, h]

theorem interpStep_overrun {s h' : State} (hd : s.interp.delayCounter = 0) (h : fetchInstr s = .error h') :
    interpStep s = .next h' := by
  simp [interpStep, hd, h]

/-- Entering the handler after a firing is entering it: the pending bit is written anew. -/
theorem tickFires_enterHandler (s : State) : s.tickFires.enterHandler = s.enterHandler := rfl

end Sys2Proof.Machine
end

