-- ==== Sys2Proof/Laws/Boot.lean ====
section
/-! SUPPORT. What the boot sequence can do, said once: it halts at one of its first three steps with a fatal code, or
its last four steps run; and what the clock setup of all wired drivers leaves alone. -/
namespace Sys2Proof.Machine

@[simp] theorem State.clockInit_launch (s : State) (d : Driver) : (s.clockInit d).launch = s.launch := rfl
@[simp] theorem State.clockInit_interp (s : State) (d : Driver) : (s.clockInit d).interp = s.interp := rfl
@[simp] theorem State.clockInit_bus (s : State) (d : Driver) : (s.clockInit d).bus = s.bus := rfl
@[simp] theorem State.clockInit_sched (s : State) (d : Driver) : (s.clockInit d).sched = s.sched := rfl
@[simp] theorem State.clockInit_hdr (s : State) (d : Driver) : (s.clockInit d).config.hdr = s.config.hdr := rfl
@[simp] theorem State.clockInit_dualRouting (s : State) (d : Driver) :
    (s.clockInit d).config.dualRouting = s.config.dualRouting := rfl
@[simp] theorem State.clockInit_traces_bus (s : State) (d : Driver) :
    (s.clockInit d).traces.bus = s.traces.bus := rfl
@[simp] theorem State.clockInit_traces_pins (s : State) (d : Driver) :
    (s.clockInit d).traces.pins = s.traces.pins := rfl

/-- A driver's configuration record after one of them is written. -/
theorem ChipConfigs.get_set (c : ChipConfigs) (d e : Driver) (r : ChipConfig) :
    (c.set d r).get e = if e = d then r else c.get e := by
  cases d <;> cases e <;> rfl

/-- A driver's clock output after one of them is programmed. -/
theorem ClockOuts.get_set (c : ClockOuts) (d e : Driver) (hz : Nat) :
    (c.set d hz).get e = if e = d then hz else c.get e := by
  cases d <;> cases e <;> rfl

/-- Whatever one `clockInit` leaves alone, the setup of any list of drivers leaves alone. -/
theorem foldl_clockInit_keeps {α : Type} (f : State → α) (hf : ∀ s d, f (s.clockInit d) = f s) (l : List Driver)
    (s : State) : f (l.foldl State.clockInit s) = f s := by
  induction l generalizing s with
  | nil => rfl
  | cons d l ih => rw [List.foldl_cons, ih, hf]

/-- Each driver of the list is requested once, in order (44_header_parser.md rule R136). -/
theorem foldl_clockInit_drivers (l : List Driver) (s : State) :
    (l.foldl State.clockInit s).traces.clock.map ClockRecord.driver = s.traces.clock.map ClockRecord.driver ++ l := by
  induction l generalizing s with
  | nil => simp
  | cons d l ih => rw [List.foldl_cons, ih]; simp [State.clockInit]

theorem foldl_clockInit_clock_prefix (l : List Driver) (s : State) :
    s.traces.clock <+: (l.foldl State.clockInit s).traces.clock := by
  induction l generalizing s with
  | nil => exact List.prefix_rfl
  | cons d l ih => exact List.IsPrefix.trans ⟨_, rfl⟩ (ih (s.clockInit d))

/-- Clock setup adds warnings alone to the diagnostic trace (60_exceptions.md rule R146, E4). -/
theorem foldl_clockInit_diag (l : List Driver) (s : State) :
    ∃ w : List DiagRecord, (l.foldl State.clockInit s).traces.diag = s.traces.diag ++ w ∧ ∀ r ∈ w, r.code = .e4 := by
  induction l generalizing s with
  | nil => exact ⟨[], by simp, by simp⟩
  | cons d l ih =>
    obtain ⟨w, h1, h2⟩ := ih (s.clockInit d)
    refine ⟨calibrationWarning d (requestHz s.launch.params s.config.hdr d)
      (Config.achievedHz s.draws (requestHz s.launch.params s.config.hdr d)) ++ w, ?_, fun r hr => ?_⟩
    · rw [List.foldl_cons, h1]
      simp [State.clockInit]
    · rcases List.mem_append.mp hr with hr | hr
      · unfold calibrationWarning at hr
        split at hr
        · simp at hr
        · rw [List.mem_singleton.mp hr]
      · exact h2 r hr

/-- The state after the first three boot steps, when none of them halts. -/
def State.validated (s : State) : State :=
  { s with
    config :=
      { s.config with hdr := s.launch.header, dualRouting := isDual s.launch.params s.launch.header .clkC8 } }

/-- Boot halts with a fatal code, the header at most written; or validation passes and steps 4 to 7 run
(70_reset_and_hazards.md rules R171, R173). -/
theorem boot_cases (s : State) :
    (∃ code info hdr, code.fatal = true ∧
      boot s = State.fatal { s with config := { s.config with hdr := hdr } } code info) ∨
    (dualOffender s.launch.params s.launch.header = none ∧
      boot s = s.validated.setOffsets.clockInits.initOutputs.arm) := by
  unfold boot
  have ho : (∃ op, openSource s = .error (s.fatal .e2 (.operation op))) ∨ openSource s = .ok s := by
    unfold openSource
    split
    · exact .inl ⟨_, rfl⟩
    · exact .inr rfl
    · exact .inr rfl
  rcases ho with ⟨op, h⟩ | h <;> rw [h] <;> simp only
  · exact .inl ⟨.e2, .operation op, s.config.hdr, rfl, rfl⟩
  · by_cases hl : s.launch.streamLength < s.launch.params.minHeaderSize
    · simp only [parse, hl, if_true]
      exact .inl ⟨.e1, _, s.config.hdr, rfl, rfl⟩
    · simp only [parse, hl, if_false, validate]
      cases hd : dualOffender s.launch.params s.launch.header with
      | some f => exact .inl ⟨.e3, .field f.offset, s.launch.header, rfl, by simp⟩
      | none => exact .inr ⟨rfl, by simp [State.validated]⟩

end Sys2Proof.Machine
end

