-- ==== Sys2Proof/Laws/Encoding.lean ====
section
/-! SUPPORT. The small laws of the encoding: looking an opcode up in a map, the opcode of a row, the short-wait block,
and the byte order of 16-bit and 32-bit operands. -/
namespace Sys2Proof

theorem mapLookup_mem {m : List (Byte × MapRow)} {op : Byte} {r : MapRow} (h : mapLookup m op = some r) :
    (op, r) ∈ m := by
  induction m with
  | nil => simp [mapLookup] at h
  | cons e m ih =>
    obtain ⟨b, x⟩ := e
    simp only [mapLookup] at h
    split at h
    · simp_all
    · exact List.mem_cons_of_mem _ (ih h)

/-- In a map that lists no byte twice, every entry is found (30_encoding.md rule R66). -/
theorem mapLookup_of_mem {m : List (Byte × MapRow)} {op : Byte} {r : MapRow} (hn : (m.map Prod.fst).Nodup)
    (h : (op, r) ∈ m) : mapLookup m op = some r := by
  induction m with
  | nil => simp at h
  | cons e m ih =>
    obtain ⟨b, x⟩ := e
    simp only [List.map_cons, List.nodup_cons] at hn
    simp only [mapLookup]
    rcases List.mem_cons.mp h with h | h
    · cases h; simp
    · have : b ≠ op := by
        rintro rfl
        exact hn.1 (List.mem_map.mpr ⟨_, h, rfl⟩)
      simp [this, ih hn.2 h]

/-- A byte of a row shows that the map has the row. -/
theorem hasRow_of_rowOf {p : Params} {op : Byte} {r : MapRow} (h : p.rowOf op = some r) : p.hasRow r = true := by
  simp only [Params.hasRow, List.any_eq_true, decide_eq_true_eq]
  exact ⟨_, mapLookup_mem h, rfl⟩

theorem opcodeOf_mem {p : Params} {r : MapRow} (h : p.hasRow r = true) : (p.opcodeOf r, r) ∈ p.opcodeMap := by
  simp only [Params.hasRow, List.any_eq_true, decide_eq_true_eq] at h
  obtain ⟨⟨b, x⟩, hm, rfl⟩ := h
  have hin : (b, x) ∈ p.opcodeMap.filter (fun e => decide (e.2 = x)) := List.mem_filter.mpr ⟨hm, by simp⟩
  obtain ⟨⟨c, y⟩, l, he⟩ := List.exists_cons_of_ne_nil (List.ne_nil_of_mem hin)
  have hmem : (c, y) ∈ p.opcodeMap.filter (fun e => decide (e.2 = x)) := by rw [he]; simp
  obtain ⟨h1, h2⟩ := List.mem_filter.mp hmem
  obtain rfl : y = x := by simpa using h2
  simpa [Params.opcodeOf, mapOpcodes, he] using h1

/-- The opcode that the encoder writes for a row is a byte of that row. -/
theorem rowOf_opcodeOf {p : Params} {r : MapRow} (hp : p.wf = true) (h : p.hasRow r = true) :
    p.rowOf (p.opcodeOf r) = some r := by
  simp only [Params.wf, mapTotal, Bool.and_eq_true, decide_eq_true_eq] at hp
  exact mapLookup_of_mem hp.1.1.1.1 (opcodeOf_mem h)

/-- Each of the sixteen short-wait bytes is of the short-wait row (30_encoding.md rule R66). -/
theorem rowOf_waits {p : Params} (hp : p.wf = true) (n : Nibble) :
    p.rowOf ((p.opcodeOf .waitS &&& 0xF0) ||| n.zeroExtend 8) = some .waitS := by
  simp only [Params.wf, mapWaits, waitsBlock, Bool.and_eq_true, decide_eq_true_eq, List.all_eq_true,
    List.mem_map] at hp
  have hn : (BitVec.ofNat 8 n.toNat) = n.zeroExtend 8 := BitVec.eq_of_toNat_eq (by simp)
  have := hp.1.1.1.2.2 ((p.opcodeOf .waitS &&& 0xF0) ||| n.zeroExtend 8)
    ⟨n.toNat, by simp [List.mem_range]; omega, by rw [hn]; rfl⟩
  simpa [Params.rowOf] using this

theorem nibble_of_waits (b : Byte) (n : Nibble) : ((b &&& 0xF0) ||| n.zeroExtend 8).truncate 4 = n := by
  revert b n; decide

/-- `LE16` of R18 as a number. -/
theorem le16_toNat (b0 b1 : Byte) : (le16 b0 b1).toNat = b0.toNat + 2 ^ 8 * b1.toNat := by
  unfold le16
  rw [BitVec.toNat_append, ← Nat.shiftLeft_add_eq_or_of_lt (by exact BitVec.isLt _)]
  simp only [Nat.shiftLeft_eq]
  omega

/-- `LE32` of R18 as a number. -/
theorem le32_toNat (b0 b1 b2 b3 : Byte) :
    (le32 b0 b1 b2 b3).toNat = b0.toNat + 2 ^ 8 * b1.toNat + 2 ^ 16 * b2.toNat + 2 ^ 24 * b3.toNat := by
  unfold le32
  rw [BitVec.toNat_append, BitVec.toNat_append, BitVec.toNat_append,
    ← Nat.shiftLeft_add_eq_or_of_lt (by exact BitVec.isLt _),
    ← Nat.shiftLeft_add_eq_or_of_lt (by exact BitVec.isLt _),
    ← Nat.shiftLeft_add_eq_or_of_lt (by exact BitVec.isLt _)]
  simp only [Nat.shiftLeft_eq]
  omega

theorem byteOf_toNat (w k : Nat) : (byteOf w k).toNat = w / 2 ^ (8 * k) % 2 ^ 8 := by
  simp [byteOf, Nat.shiftRight_eq_div_pow]

theorem le16_byteOf (c : Half) : le16 (byteOf c.toNat 0) (byteOf c.toNat 1) = c := by
  apply BitVec.eq_of_toNat_eq
  have := c.isLt
  simp only [le16_toNat, byteOf_toNat]
  omega

theorem le32_byteOf (c : Word) :
    le32 (byteOf c.toNat 0) (byteOf c.toNat 1) (byteOf c.toNat 2) (byteOf c.toNat 3) = c := by
  apply BitVec.eq_of_toNat_eq
  have := c.isLt
  simp only [le32_toNat, byteOf_toNat]
  omega

/-- Bytes decode by their opcode's row, or to `.UNREC` (30_encoding.md rule R65). -/
theorem decode_cons_some {p : Params} {op : Byte} {r : MapRow} (rest : List Byte) (h : p.rowOf op = some r) :
    decode p (op :: rest) = decodeRow p op rest r := by
  simp [decode, h]

theorem decode_cons_none {p : Params} {op : Byte} (rest : List Byte) (h : p.rowOf op = none) :
    decode p (op :: rest) = .ok (.unrec op) rest := by
  simp [decode, h]

end Sys2Proof
end

