-- ==== Sys2Proof/Laws/Memory.lean ====
section
/-! SUPPORT. The laws of the song image: a byte placed is read back, every other byte is left alone, and every
operation keeps the canonical form. -/
namespace Sys2Proof.Machine

theorem Memory.wf_tail {c : Host.Cell} {m : Memory} (h : Memory.wf (c :: m)) : Memory.wf m :=
  ⟨(List.pairwise_cons.mp h.1).2, fun d hd => h.2 d (List.mem_cons_of_mem _ hd)⟩

/-- Below every listed offset, the image reads as unlisted. -/
theorem Memory.read_below {m : Memory} {a : Nat} (h : ∀ c ∈ m, a < c.1) : m.read a = Memory.unlisted := by
  induction m with
  | nil => rfl
  | cons c m ih =>
    obtain ⟨k, b⟩ := c
    have hk : a < k := h (k, b) (by simp)
    have hne : k ≠ a := by omega
    simp only [Memory.read, hne, if_false]
    exact ih fun d hd => h d (List.mem_cons_of_mem _ hd)

theorem Memory.read_write_other (m : Memory) {a a' : Nat} (b : Byte) (h : a' ≠ a) :
    (m.write a b).read a' = m.read a' := by
  induction m with
  | nil => by_cases hb : b = Memory.unlisted <;> simp [Memory.write, Memory.read, hb, Ne.symm h]
  | cons c m ih =>
    obtain ⟨k, c⟩ := c
    simp only [Memory.write]
    split
    · split <;> simp [Memory.read, Ne.symm h]
    · split
      · next hk => subst hk; split <;> simp [Memory.read, Ne.symm h]
      · simp [Memory.read, ih]

theorem Memory.read_write_same {m : Memory} (hm : m.wf) (a : Nat) (b : Byte) : (m.write a b).read a = b := by
  induction m with
  | nil => by_cases hb : b = Memory.unlisted <;> simp [Memory.write, Memory.read, hb]
  | cons c m ih =>
    obtain ⟨k, c⟩ := c
    have above : ∀ d ∈ m, k < d.1 := (List.pairwise_cons.mp hm.1).1
    simp only [Memory.write]
    split
    · next hlt =>
      split
      · next hb =>
        subst hb
        exact Memory.read_below fun d hd => by
          rcases List.mem_cons.mp hd with rfl | hd
          · exact hlt
          · exact Nat.lt_trans hlt (above d hd)
      · simp [Memory.read]
    · split
      · next hk =>
        subst hk
        split
        · next hb => subst hb; exact Memory.read_below above
        · simp [Memory.read]
      · next hk =>
        have : k ≠ a := fun e => hk e.symm
        simp [Memory.read, this, ih (Memory.wf_tail hm)]

/-- An entry of a written image is an entry of the image before, or the byte placed. -/
theorem Memory.mem_write {m : Memory} {a : Nat} {b : Byte} {d : Host.Cell} (h : d ∈ m.write a b) :
    d ∈ m ∨ (d = (a, b) ∧ b ≠ Memory.unlisted) := by
  induction m with
  | nil =>
    by_cases hb : b = Memory.unlisted <;> simp_all [Memory.write]
  | cons c m ih =>
    obtain ⟨k, c⟩ := c
    simp only [Memory.write] at h
    split at h
    · split at h
      · exact .inl h
      · rcases List.mem_cons.mp h with rfl | h
        · exact .inr ⟨rfl, ‹_›⟩
        · exact .inl h
    · split at h
      · split at h
        · exact .inl (List.mem_cons_of_mem _ h)
        · rcases List.mem_cons.mp h with rfl | h
          · exact .inr ⟨rfl, ‹_›⟩
          · exact .inl (List.mem_cons_of_mem _ h)
      · rcases List.mem_cons.mp h with rfl | h
        · exact .inl (by simp)
        · exact (ih h).imp (List.mem_cons_of_mem _) id

theorem Memory.write_wf {m : Memory} (hm : m.wf) (a : Nat) (b : Byte) : (m.write a b).wf := by
  refine ⟨?_, fun d hd => (Memory.mem_write hd).elim (hm.2 d) fun h => by rw [h.1]; exact h.2⟩
  induction m with
  | nil => by_cases hb : b = Memory.unlisted <;> simp [Memory.write, hb]
  | cons c m ih =>
    obtain ⟨k, c⟩ := c
    have hp := List.pairwise_cons.mp hm.1
    simp only [Memory.write]
    split
    · next hlt =>
      split
      · exact hm.1
      · refine List.pairwise_cons.mpr ⟨fun d hd => ?_, hm.1⟩
        rcases List.mem_cons.mp hd with rfl | hd
        · exact hlt
        · exact Nat.lt_trans hlt (hp.1 d hd)
    · split
      · next hk =>
        subst hk
        split
        · exact hp.2
        · exact List.pairwise_cons.mpr ⟨hp.1, hp.2⟩
      · next hlt hk =>
        refine List.pairwise_cons.mpr ⟨fun d hd => ?_, ih (Memory.wf_tail hm)⟩
        rcases Memory.mem_write hd with hd | ⟨rfl, -⟩
        · exact hp.1 d hd
        · show k < a
          omega

theorem Memory.writeAll_wf {m : Memory} (hm : m.wf) (a : Nat) (bs : List Byte) : (m.writeAll a bs).wf := by
  induction bs generalizing m a with
  | nil => exact hm
  | cons b bs ih => exact ih (Memory.write_wf hm a b) (a + 1)

/-- Bytes placed below or at other offsets are left alone. -/
theorem Memory.read_writeAll_other (m : Memory) (a : Nat) (bs : List Byte) {a' : Nat}
    (h : a' < a ∨ a + bs.length ≤ a') : (m.writeAll a bs).read a' = m.read a' := by
  induction bs generalizing m a with
  | nil => rfl
  | cons b bs ih =>
    simp only [List.length_cons] at h
    rw [Memory.writeAll, ih (m.write a b) (a + 1) (by omega), Memory.read_write_other m b (by omega)]

/-- Bytes placed are read back. -/
theorem Memory.read_writeAll {m : Memory} (hm : m.wf) (a : Nat) (bs : List Byte) (k : Nat) (hk : k < bs.length) :
    (m.writeAll a bs).read (a + k) = bs[k] := by
  induction bs generalizing m a k with
  | nil => simp at hk
  | cons b bs ih =>
    cases k with
    | zero =>
      rw [Memory.writeAll, Memory.read_writeAll_other _ _ _ (by omega)]
      simpa using Memory.read_write_same hm a b
    | succ k =>
      have := ih (Memory.write_wf hm a b) (a + 1) k (by simpa using hk)
      rw [Memory.writeAll, show a + (k + 1) = a + 1 + k by omega, this]
      simp

theorem reset_image_wf : State.reset.launch.image.wf := by decide

/-- Loading an image from outside gives its canonical form. -/
theorem withImage_wf (s : State) (bytes : List Byte) : (s.withImage bytes).launch.image.wf :=
  Memory.writeAll_wf ⟨List.Pairwise.nil, by simp⟩ 0 bytes

/-- Placing a command keeps the canonical form. -/
theorem placeBytes_wf {s : State} (h : s.launch.image.wf) (bytes : List Byte) :
    (s.placeBytes bytes).launch.image.wf :=
  Memory.writeAll_wf h _ bytes

end Sys2Proof.Machine
end

