-- ==== Sys2Proof/Laws/PerInstr.lean ====
section
/-! SUPPORT. One family of statements made per command: its encoding has the length of 30_encoding.md rule R67 (for a
SKIP_FULL data block, without the payload) under every opcode map. -/
namespace Sys2Proof.Laws.CommandLength

/-- The bytes of a command before any payload, in number. -/
def Statement (i : Instr) : Prop :=
  ∀ p : Params, (encode p i).length = match i with
    | .dblkFull _ _ _ => 7
    | j => j.length

theorem waitS (n : Nibble) : Statement (.waitS n) := fun _ => rfl
theorem waitN (count : Half) : Statement (.waitN count) := fun _ => rfl
theorem wait735 : Statement .wait735 := fun _ => rfl
theorem wait882 : Statement .wait882 := fun _ => rfl
theorem wrFma2op (reg val : Byte) : Statement (.wrFma2op reg val) := fun _ => rfl
theorem wrFmaOpm (reg val : Byte) : Statement (.wrFmaOpm reg val) := fun _ => rfl
theorem wrFma1op (reg val : Byte) : Statement (.wrFma1op reg val) := fun _ => rfl
theorem wrFmb0 (reg val : Byte) : Statement (.wrFmb0 reg val) := fun _ => rfl
theorem wrFmb1 (reg val : Byte) : Statement (.wrFmb1 reg val) := fun _ => rfl
theorem wrPsg (reg val : Byte) : Statement (.wrPsg reg val) := fun _ => rfl
theorem skipGgst (d : Byte) : Statement (.skipGgst d) := fun _ => rfl
theorem skipSn (d : Byte) : Statement (.skipSn d) := fun _ => rfl
theorem skipSf0 (r v : Byte) : Statement (.skipSf0 r v) := fun _ => rfl
theorem skipSf1 (r v : Byte) : Statement (.skipSf1 r v) := fun _ => rfl
theorem skipOpm (r v : Byte) : Statement (.skipOpm r v) := fun _ => rfl
theorem skipFm2op (r v : Byte) : Statement (.skipFm2op r v) := fun _ => rfl
theorem skipFm1op (r v : Byte) : Statement (.skipFm1op r v) := fun _ => rfl
theorem skipFmb0 (r v : Byte) : Statement (.skipFmb0 r v) := fun _ => rfl
theorem skipFmb1 (r v : Byte) : Statement (.skipFmb1 r v) := fun _ => rfl
theorem skipPsg (r v : Byte) : Statement (.skipPsg r v) := fun _ => rfl
theorem loop : Statement .loop := fun _ => rfl
theorem dblk : Statement .dblk := fun _ => rfl
theorem dblkFull (compat type : Byte) (size : Word) : Statement (.dblkFull compat type size) := fun _ => rfl
theorem bseek (b0 b1 b2 : Byte) : Statement (.bseek b0 b1 b2) := fun _ => rfl
theorem unrec (op : Byte) : Statement (.unrec op) := fun _ => rfl

end Sys2Proof.Laws.CommandLength
end

