-- ==== Sys2Proof/Laws/Step.lean ====
section
/-! SUPPORT. What a command and a step can do, said once: the inversion lemmas that invariants are proved from. -/
namespace Sys2Proof.Machine

theorem skipBytes_or_overrun (s : State) (n : Nat) :
    s.skipBytes n = s.advance n ∨ ∃ a, s.skipBytes n = s.overrun a := by
  rcases skipBytes_cases s n with ⟨_, e⟩ | ⟨_, _, e⟩ | ⟨_, _, e⟩
  · exact .inl e
  · exact .inr ⟨_, e⟩
  · exact .inr ⟨_, e⟩

/-- A command moves the cursor; or writes the delay too; or performs one driver write and toggles the indicator;
or logs an unrecognized opcode; or halts at a payload read. -/
theorem exec_cases {i : Instr} {s t : State} (h : exec i s = .next t) :
    (∃ c, t = s.setCursor c) ∨ (∃ c d, t = (s.setCursor c).setDelay d) ∨
    (∃ c port target sel reg val, i.wrPort = some port ∧ target.family = port.driver ∧
      t = ((s.setCursor c).twoPhase target sel reg val).toggleActivity) ∨
    (∃ c op, t = (s.setCursor c).emit .e5 (.opcode op s.interp.cursor)) ∨
    (∃ a, t = s.overrun a) := by
  cases i
  case waitS | waitN | wait735 | wait882 => cases h; exact .inr (.inl ⟨_, _, rfl⟩)
  case wrFma2op | wrFmaOpm | wrFma1op =>
    cases h; exact .inr (.inr (.inl ⟨_, .fma, .fma, _, _, _, rfl, rfl, rfl⟩))
  case wrFmb0 => cases h; exact .inr (.inr (.inl ⟨_, .fmb0, .fmb, _, _, _, rfl, rfl, rfl⟩))
  case wrFmb1 => cases h; exact .inr (.inr (.inl ⟨_, .fmb1, .fmb, _, _, _, rfl, rfl, rfl⟩))
  case wrPsg reg val =>
    cases h
    exact .inr (.inr (.inl ⟨_, .psg, psgTarget reg, _, _, _, rfl, by unfold psgTarget; split <;> rfl, rfl⟩))
  case unrec => cases h; exact .inr (.inr (.inr (.inl ⟨_, _, rfl⟩)))
  case dblkFull c y size =>
    simp only [exec, execDblkFull, Host.Outcome.next.injEq] at h
    rcases skipBytes_or_overrun (s.advance 7) size.toNat with e | ⟨a, e⟩ <;> rw [e] at h <;> subst h
    · exact .inl ⟨_, rfl⟩
    · exact .inr (.inr (.inr (.inr ⟨a, rfl⟩)))
  all_goals cases h; exact .inl ⟨_, rfl⟩

/-- Every command completes: a halt too is a next state (log entry 13). -/
theorem exec_next (i : Instr) (s : State) : ∃ t, exec i s = .next t := by
  cases i <;> exact ⟨_, rfl⟩

theorem interpStep_next (s : State) : ∃ t, interpStep s = .next t := by
  unfold interpStep
  split
  · exact ⟨_, rfl⟩
  · split
    · exact ⟨_, rfl⟩
    · next i _ =>
      obtain ⟨t, h⟩ := exec_next i s
      rw [h]
      exact ⟨_, rfl⟩

/-- `step()` ends in a delay tick, a halt at a failing read, a halt inside a command, or a command followed by the
end check. -/
theorem interpStep_cases {s t : State} (h : interpStep s = .next t) :
    (0 < s.interp.delayCounter ∧ t = s.setDelay (s.interp.delayCounter - 1)) ∨
    (s.interp.delayCounter = 0 ∧ ∃ a, t = s.overrun a) ∨
    (s.interp.delayCounter = 0 ∧ ∃ i rest u, decode s.launch.params s.window = .ok i rest ∧
      exec i s = .next u ∧ t = if u.sched.phase = .running then u.endCheck else u) := by
  by_cases hd : 0 < s.interp.delayCounter
  · rw [interpStep_delay hd, Host.Outcome.next.injEq] at h
    exact .inl ⟨hd, h.symm⟩
  · have hd0 : s.interp.delayCounter = 0 := by
      rw [BitVec.lt_def] at hd
      exact BitVec.eq_of_toNat_eq (by simpa using hd)
    rcases fetchInstr_cases s with ⟨i, rest, hdec, hf⟩ | ⟨e, _, hf⟩
    · rw [interpStep_command hd0 hf] at h
      cases hx : exec i s with
      | next u =>
        rw [hx, afterCommand, Host.Outcome.next.injEq] at h
        exact .inr (.inr ⟨hd0, i, rest, u, hdec, hx, h.symm⟩)
      | fault f => rw [hx] at h; cases h
      | refused r => rw [hx] at h; cases h
    · rw [interpStep_overrun hd0 hf, Host.Outcome.next.injEq] at h
      exact .inr (.inl ⟨hd0, _, h.symm⟩)

/-- A taken tick is the handler around one `step()` (60_exceptions.md rule R157). -/
theorem step_of_takesTick {s : State} (h : s.takesTick) : step s = leaveHandler (interpStep s.enterHandler) := by
  obtain ⟨hp, hr, hb⟩ := h
  have ready : s.tickFires.handlerReady = true := by simp [State.handlerReady, hp, hr, hb]
  simp only [step, machineStep, hp, onTick, ready, if_true, runHandler, tickFires_enterHandler]

/-- A run of one more step is a step and the run after it. -/
theorem run_succ (k : Nat) (s : State) : core.run (k + 1) s = (match step s with
    | .next t => core.run k t
    | .fault f => .fault f
    | .refused r => .refused r) := by
  refine (Host.Core.run.eq_2 core s k).trans ?_
  rw [show core.step s = step s from rfl]
  cases step s <;> rfl

/-- A step is the boot sequence, a taken tick, or an idle tick of a machine whose handler may not start. -/
theorem step_cases {s t : State} (h : step s = .next t) :
    (s.sched.phase = .boot ∧ t = boot s) ∨
    (s.takesTick ∧ ∃ u, interpStep s.enterHandler = .next u ∧ t = u.exitHandler) ∨
    (s.sched.phase = .running ∧ ¬ s.takesTick ∧ t = s.tickFires) := by
  cases hp : s.sched.phase with
  | boot =>
    simp only [step, machineStep, hp, Host.Outcome.next.injEq] at h
    exact .inl ⟨rfl, h.symm⟩
  | halted => simp [step, machineStep, hp] at h
  | running =>
    by_cases ht : s.takesTick
    · rw [step_of_takesTick ht] at h
      cases hu : interpStep s.enterHandler with
      | next u =>
        rw [hu, leaveHandler, Host.Outcome.next.injEq] at h
        exact .inr (.inl ⟨ht, u, rfl, h.symm⟩)
      | fault f => rw [hu] at h; cases h
      | refused r => rw [hu] at h; cases h
    · have idle : s.tickFires.handlerReady = false := by
        rw [Bool.eq_false_iff]
        intro hr
        simp only [State.handlerReady, Bool.and_eq_true, State.tickFires_sched_tickPending,
          State.tickFires_sched_handlerBusy, Bool.not_eq_true'] at hr
        exact ht ⟨hp, hr.1.1, hr.1.2⟩
      simp only [step, machineStep, hp, onTick, idle, Bool.false_eq_true, if_false, Host.Outcome.next.injEq] at h
      exact .inr (.inr ⟨rfl, ht, h.symm⟩)

end Sys2Proof.Machine
end

