-- ==== Sys2Proof/Tests/Slice0.lean ====
section
/-! SUPPORT. Tests: ill-formed terms that the checks refuse, words written out from the spec's encodings, single
steps with the results of spec/95_test_vectors.md (the vector is named at each), and a witness for the
hypotheses of every statement that has some. -/
namespace Sys2Proof.Tests
open Sys2Proof Sys2Proof.Machine

set_option maxRecDepth 8000

/-! ### Helpers -/

/-- FM-A at header offset 0x30. -/
def paramsOpm : Params := { Params.profileM with fmaField := .at30 }

/-- FM-A at header offset 0x54. -/
def params1op : Params := { Params.profileM with fmaField := .at54 }

/-- Profile M in SKIP_FULL mode. -/
def paramsFull : Params := { Params.profileM with dataBlockMode := .skipFull }

/-- A RUNNING machine about to fetch at 0x40, where the bytes stand; they end the image. -/
def running (p : Params) (bytes : List Byte) : State :=
  { State.reset with
    launch :=
      { params := p, image := Memory.writeAll [] 0x40 bytes, streamLength := BitVec.ofNat 32 (0x40 + bytes.length)
        sourceResult := .ready }
    interp :=
      { cursor := 0x40, delayCounter := 0, startOffset := 0x40, loopOffset := 0x1C, endOffset := 0xFFFF
        loopDefined := false }
    sched := { State.reset.sched with phase := .running, armed := true } }

/-- Does the next step give a next state of which `f` holds? -/
def stepGives (s : State) (f : State → Bool) : Bool :=
  match step s with
  | .next t => f t
  | .fault _ => false
  | .refused _ => false

/-- Does the command give a next state of which `f` holds? -/
def execGives (i : Instr) (s : State) (f : State → Bool) : Bool :=
  match exec i s with
  | .next t => f t
  | .fault _ => false
  | .refused _ => false

/-- The next step moves the cursor and writes the delay, and nothing shows on the bus or in the diagnostic trace. -/
def goesTo (s : State) (cursor : Word) (delay : Half) : Bool :=
  stepGives s fun t =>
    decide (t.interp.cursor = cursor ∧ t.interp.delayCounter = delay ∧ t.traces = s.traces ∧ t.bus = s.bus ∧
      t.sched.phase = .running)

/-- The next step appends the two bus records, passes three bytes and toggles the indicator. -/
def writes (s : State) (a b : BusRecord) : Bool :=
  stepGives s fun t =>
    decide (t.traces.bus = s.traces.bus ++ [a, b] ∧ t.interp.cursor = s.interp.cursor + 3 ∧
      t.bus.activity = !s.bus.activity ∧ t.bus.data = b.byte ∧ t.bus.sel = b.sel ∧ t.bus.stb = Strobes.off)

/-- The next step halts with `StreamOverrun` at the offset, before any other effect. -/
def overruns (s : State) (a : Word) : Bool :=
  stepGives s fun t =>
    decide (t.sched.phase = .halted ∧ t.sched.haltCode = some .e6 ∧ t.sched.armed = false ∧ t.interp.cursor = a ∧
      t.interp.delayCounter = s.interp.delayCounter ∧ t.traces.diag = s.traces.diag ++ [⟨.e6, .offset a⟩] ∧
      t.traces.bus = s.traces.bus ∧ t.bus = s.bus)

/-- Launch inputs: header words at their offsets, the rest 0. -/
def song (p : Params) (len : Word) (words : List (Nat × Nat)) : Launch where
  params := p
  image := words.foldl (fun m e => m.writeAll e.1 [byteOf e.2 0, byteOf e.2 1, byteOf e.2 2, byteOf e.2 3]) []
  streamLength := len
  sourceResult := .ready

/-- A machine at power-on with launch inputs. -/
def powered (l : Launch) : State := { State.reset with launch := l }

/-- A RUNNING machine whose boot-written registers are those of its launch inputs. -/
def booted (l : Launch) : State :=
  { State.reset with
    launch := l
    interp :=
      { cursor := startOffsetOf l.params l.header, delayCounter := 0, startOffset := startOffsetOf l.params l.header
        loopOffset := loopOffsetOf l.header, endOffset := endOffsetOf l.header, loopDefined := loopDefinedOf l.header }
    config :=
      { State.reset.config with hdr := l.header, dualRouting := isDual l.params l.header .clkC8 }
    sched := { State.reset.sched with phase := .running, armed := true }
    traces := { State.reset.traces with clock := (driversOf l.params.profile).map (fun d => ⟨d, 0, 0⟩) } }

/-- Program P2's header and its first command (spec/95_test_vectors.md). -/
def songP2 : Launch :=
  let l := song Params.profileF 0x10C
    [(0x04, 0x108), (0x08, 0x171), (0x1C, 0xE7), (0x34, 0xCC), (0x5C, 0x00DA7A64), (0xC8, 0x406D3D32)]
  { l with image := l.image.writeAll 0x100 [0x5E, 0x01, 0x20, 0x5F, 0x05, 0x01, 0x61, 0x02, 0x00, 0xBD, 0x9C, 0x03] }

/-! ### Ill-formed terms are refused (30_encoding.md rules R62, R66; 42_chip_write.md rule R100) -/

theorem test_default_map_is_wf : Params.profileM.wf = true ∧ Params.profileF.wf = true := by decide

theorem test_map_with_a_byte_twice_is_refused :
    ({ Params.profileM with opcodeMap := defaultOpcodeMap ++ [(0x66, .sn)] } : Params).wf = false := by decide

theorem test_map_with_17_short_waits_is_refused :
    mapWaits (defaultOpcodeMap ++ [(0x80, .waitS)]) = false := by decide

theorem test_map_with_split_short_waits_is_refused :
    mapWaits ((defaultOpcodeMap.filter (fun e => decide (e.1 ≠ 0x7F))) ++ [(0x8F, .waitS)]) = false := by decide

theorem test_map_with_two_loops_is_refused :
    mapSingles (defaultOpcodeMap ++ [(0x01, .loop)]) = false ∧
    mapSingles (defaultOpcodeMap.filter (fun e => decide (e.2 ≠ .bankSeek))) = false := by decide

theorem test_map_without_a_wired_write_is_refused :
    ({ Params.profileF with opcodeMap := defaultOpcodeMap.filter (fun e => decide (e.2 ≠ .psg)) } : Params).mapWrites
      = false ∧
    ({ Params.profileM with opcodeMap := defaultOpcodeMap ++ [(0x01, .fm2op)] } : Params).mapWrites = false := by
  decide

theorem test_bad_selectors_are_refused :
    ({ defaultSel with fma := ⟨0b10, 0b01⟩ } : SelTable).wf = false ∧
    ({ defaultSel with fma := ⟨0b00, 0b11⟩ } : SelTable).wf = false ∧
    ({ defaultSel with psg := ⟨0b11, 0b00⟩ } : SelTable).wf = false ∧
    ({ defaultSel with psg := ⟨0b01, 0b10⟩ } : SelTable).wf = false ∧
    ({ defaultSel with fmb0 := ⟨0b10, 0b01⟩ } : SelTable).wf = false ∧
    ({ defaultSel with fmb0 := ⟨0b00, 0b11⟩ } : SelTable).wf = false ∧
    ({ defaultSel with fmb1 := ⟨0b00, 0b11⟩ } : SelTable).wf = false ∧
    ({ defaultSel with fmb1 := ⟨0b10, 0b01⟩ } : SelTable).wf = false := by decide

theorem test_writes_of_another_profile_are_ill_formed :
    (Instr.wrFma2op 0 0).wf paramsOpm = false ∧ (Instr.wrFmaOpm 0 0).wf Params.profileM = false ∧
    (Instr.wrFma1op 0 0).wf Params.profileM = false ∧ (Instr.wrFma2op 0 0).wf Params.profileF = false ∧
    (Instr.wrFmb0 0 0).wf Params.profileM = false ∧ (Instr.wrFmb1 0 0).wf Params.profileM = false ∧
    (Instr.wrPsg 0 0).wf Params.profileM = false := by decide

theorem test_skips_of_a_wired_driver_are_ill_formed :
    (Instr.skipFm2op 0 0).wf Params.profileM = false ∧ (Instr.skipOpm 0 0).wf paramsOpm = false ∧
    (Instr.skipFm1op 0 0).wf params1op = false ∧ (Instr.skipFmb0 0 0).wf Params.profileF = false ∧
    (Instr.skipFmb1 0 0).wf Params.profileF = false ∧ (Instr.skipPsg 0 0).wf Params.profileF = false := by decide

theorem test_data_block_of_the_other_mode_is_ill_formed :
    Instr.dblk.wf paramsFull = false ∧ (Instr.dblkFull 0 0 0).wf Params.profileM = false := by decide

theorem test_unrec_of_a_claimed_byte_is_ill_formed :
    (Instr.unrec 0x66).wf Params.profileM = false ∧ (Instr.unrec 0x00).wf Params.profileM = true := by decide

theorem test_command_without_an_opcode_is_ill_formed :
    ∀ i ∈ [Instr.waitS 0, .waitN 0, .wait735, .wait882, .wrFma2op 0 0, .skipGgst 0, .skipSn 0, .skipSf0 0 0,
      .skipSf1 0 0, .skipOpm 0 0, .skipFm1op 0 0, .skipFmb0 0 0, .skipFmb1 0 0, .skipPsg 0 0, .loop, .dblk,
      .bseek 0 0 0], i.wf { Params.profileM with opcodeMap := [] } = false := by decide

/-! ### Words written out from the encodings (30_encoding.md sections 1, 2 and 4) -/

theorem test_decode_waits :
    decode Params.profileM [0b01110000] = .ok (.waitS 0) [] ∧ decode Params.profileM [0b01111111] = .ok (.waitS 15) [] ∧
    decode Params.profileM [0b01100001, 0b00000001, 0b10000000] = .ok (.waitN 0x8001) [] ∧
    decode Params.profileM [0b01100010] = .ok .wait735 [] ∧ decode Params.profileM [0b01100011] = .ok .wait882 [] := by
  decide

theorem test_decode_writes :
    decode Params.profileM [0b01011010, 0x20, 0x01] = .ok (.wrFma2op 0x20 0x01) [] ∧
    decode paramsOpm [0b01010100, 0x20, 0x01] = .ok (.wrFmaOpm 0x20 0x01) [] ∧
    decode params1op [0b01011011, 0x20, 0x01] = .ok (.wrFma1op 0x20 0x01) [] ∧
    decode Params.profileF [0b01011110, 0x20, 0x01] = .ok (.wrFmb0 0x20 0x01) [] ∧
    decode Params.profileF [0b01011111, 0x20, 0x01] = .ok (.wrFmb1 0x20 0x01) [] ∧
    decode Params.profileF [0b10111101, 0x20, 0x01] = .ok (.wrPsg 0x20 0x01) [] := by decide

theorem test_decode_skips :
    decode Params.profileM [0b01001111, 0xAB] = .ok (.skipGgst 0xAB) [] ∧
    decode Params.profileM [0b01010000, 0xAB] = .ok (.skipSn 0xAB) [] ∧
    decode Params.profileM [0b01010010, 0xAB, 0xCD] = .ok (.skipSf0 0xAB 0xCD) [] ∧
    decode Params.profileM [0b01010011, 0xAB, 0xCD] = .ok (.skipSf1 0xAB 0xCD) [] ∧
    decode Params.profileM [0b01010100, 0xAB, 0xCD] = .ok (.skipOpm 0xAB 0xCD) [] ∧
    decode Params.profileF [0b01011010, 0xAB, 0xCD] = .ok (.skipFm2op 0xAB 0xCD) [] ∧
    decode Params.profileM [0b01011011, 0xAB, 0xCD] = .ok (.skipFm1op 0xAB 0xCD) [] ∧
    decode Params.profileM [0b01011110, 0xAB, 0xCD] = .ok (.skipFmb0 0xAB 0xCD) [] ∧
    decode Params.profileM [0b01011111, 0xAB, 0xCD] = .ok (.skipFmb1 0xAB 0xCD) [] ∧
    decode Params.profileM [0b10111101, 0xAB, 0xCD] = .ok (.skipPsg 0xAB 0xCD) [] := by decide

theorem test_decode_stream_control :
    decode Params.profileM [0b01100110] = .ok .loop [] ∧ decode Params.profileM [0b01100111] = .ok .dblk [] ∧
    decode paramsFull [0b01100111, 0x66, 0x07, 0x78, 0x56, 0x34, 0x12] = .ok (.dblkFull 0x66 0x07 0x12345678) [] ∧
    decode Params.profileM [0b11100000, 0x01, 0x02, 0x03] = .ok (.bseek 0x01 0x02 0x03) [] ∧
    decode Params.profileM [0x00] = .ok (.unrec 0x00) [] ∧ decode Params.profileM [0xFF] = .ok (.unrec 0xFF) [] := by
  decide

theorem test_decode_refuses_missing_bytes :
    decode Params.profileM [] = .error .noOpcode ∧ decode Params.profileM [0x61, 0x05] = .error .missingOperand ∧
    decode Params.profileM [0x5A, 0x20] = .error .missingOperand ∧ decode Params.profileM [0x50] = .error .missingOperand ∧
    decode Params.profileM [0xE0, 0x10, 0x00] = .error .missingOperand ∧
    decode paramsFull [0x67, 0x66, 0x00, 0x02, 0x00, 0x00] = .error .missingOperand := by decide

/-- The words of the opcode table, as the host numbers them. -/
theorem test_decode_table_words :
    decodeTableWord 8 0x7A = some (.waitS 10) ∧ decodeTableWord 24 0x123461 = some (.waitN 0x1234) ∧
    decodeTableWord 24 0x01205A = some (.wrFma2op 0x20 0x01) ∧ decodeTableWord 8 0x5A = some (.wrFma2op 0 0) ∧
    decodeTableWord 32 0x030201E0 = some (.bseek 1 2 3) := by decide

theorem test_encode_writes_the_bytes_of_the_spec :
    encode Params.profileM (.waitN 0x1234) = [0x61, 0x34, 0x12] ∧ encode Params.profileM (.waitS 5) = [0x75] ∧
    encode paramsFull (.dblkFull 0x66 0x00 0x00000102) = [0x67, 0x66, 0x00, 0x02, 0x01, 0x00, 0x00] ∧
    encode Params.profileF (.wrPsg 0x9C 0x03) = [0xBD, 0x9C, 0x03] := by decide

/-! ### The interpreter's step (spec/95_test_vectors.md, L2.1) -/

/-- V1, V2, V3. -/
theorem test_delay_tick_reads_nothing :
    goesTo { running Params.profileM [] with interp.delayCounter := 1, interp.cursor := 0x50 } 0x50 0 = true ∧
    goesTo { running Params.profileM [] with interp.delayCounter := 0xFFFF, interp.cursor := 0x50 } 0x50 0xFFFE = true ∧
    goesTo { running Params.profileM [] with interp.delayCounter := 2, interp.cursor := 0x40 } 0x40 1 = true := by
  decide

/-- V4. -/
theorem test_fetch_at_the_stream_end_overruns : overruns (running Params.profileM []) 0x40 = true := by decide

/-- V5: the end wrap after a write. -/
theorem test_end_wrap :
    stepGives { running Params.profileM [0x5A, 0x01, 0x02] with interp.endOffset := 0x43, interp.startOffset := 0x10 }
      (fun t => decide (t.interp.cursor = 0x10 ∧ t.traces.bus.length = 2)) = true := by decide

/-- V6, V8: operands across the end miss the wrap, and a wait that ends there wraps in the same step. -/
theorem test_end_wrap_is_by_equality :
    goesTo { running Params.profileM [0x61, 0x03, 0x00] with interp.endOffset := 0x42 } 0x43 3 = true ∧
    goesTo { running Params.profileM [0x72] with interp.endOffset := 0x41, interp.startOffset := 0x10 } 0x10 2 = true := by
  decide

/-! ### One step of each command (L2.2 to L2.4) -/

/-- V10, V11 and W1's example. -/
theorem test_waitS :
    goesTo (running Params.profileM [0x70]) 0x41 0 = true ∧ goesTo (running Params.profileM [0x7F]) 0x41 15 = true ∧
    goesTo (running Params.profileM [0x7A]) 0x41 10 = true := by decide

/-- V12, V13, V14, W2. -/
theorem test_waitN :
    goesTo (running Params.profileM [0x61, 0x00, 0x00]) 0x43 0 = true ∧
    goesTo (running Params.profileM [0x61, 0xFF, 0xFF]) 0x43 0xFFFF = true ∧
    goesTo (running Params.profileM [0x61, 0x00, 0x01]) 0x43 0x0100 = true ∧
    goesTo (running Params.profileM [0x61, 0x34, 0x12]) 0x43 0x1234 = true := by decide

/-- V17. -/
theorem test_waitN_without_its_high_byte_overruns : overruns (running Params.profileM [0x61, 0x34]) 0x42 = true := by
  decide

/-- V15, V16. -/
theorem test_fixed_waits :
    goesTo (running Params.profileM [0x62]) 0x41 735 = true ∧ goesTo (running Params.profileM [0x63]) 0x41 882 = true := by
  decide

/-- V20, V21. -/
theorem test_wrFma2op :
    writes (running Params.profileM [0x5A, 0x20, 0x01]) ⟨.fma, 0b00, 0x20⟩ ⟨.fma, 0b01, 0x01⟩ = true ∧
    writes (running Params.profileM [0x5A, 0xFF, 0xFF]) ⟨.fma, 0b00, 0xFF⟩ ⟨.fma, 0b01, 0xFF⟩ = true := by decide

/-- V22. -/
theorem test_wrFmaOpm :
    writes (running paramsOpm [0x54, 0x08, 0x78]) ⟨.fma, 0b00, 0x08⟩ ⟨.fma, 0b01, 0x78⟩ = true := by decide

theorem test_wrFma1op :
    writes (running params1op [0x5B, 0x08, 0x78]) ⟨.fma, 0b00, 0x08⟩ ⟨.fma, 0b01, 0x78⟩ = true := by decide

/-- V24. -/
theorem test_wrFmb0 :
    writes (running Params.profileF [0x5E, 0x01, 0x20]) ⟨.fmb, 0b00, 0x01⟩ ⟨.fmb, 0b01, 0x20⟩ = true := by decide

/-- V25, V26. -/
theorem test_wrFmb1 :
    writes (running Params.profileF [0x5F, 0x05, 0x01]) ⟨.fmb, 0b10, 0x05⟩ ⟨.fmb, 0b11, 0x01⟩ = true ∧
    writes (running Params.profileF [0x5F, 0x80, 0x00]) ⟨.fmb, 0b10, 0x80⟩ ⟨.fmb, 0b11, 0x00⟩ = true := by decide

/-- V27 to V30. -/
theorem test_wrPsg :
    writes (running Params.profileF [0xBD, 0x1F, 0x55]) ⟨.psgA, 0b01, 0x1F⟩ ⟨.psgA, 0b00, 0x55⟩ = true ∧
    writes (running Params.profileF [0xBD, 0x9C, 0x03]) ⟨.psgB, 0b01, 0x1C⟩ ⟨.psgB, 0b00, 0x03⟩ = true ∧
    writes (running Params.profileF [0xBD, 0x80, 0x00]) ⟨.psgB, 0b01, 0x00⟩ ⟨.psgB, 0b00, 0x00⟩ = true ∧
    writes (running Params.profileF [0xBD, 0xFF, 0x80]) ⟨.psgB, 0b01, 0x7F⟩ ⟨.psgB, 0b00, 0x80⟩ = true := by decide

/-- V31. -/
theorem test_wrPsg_without_stripping :
    writes (running { Params.profileF with psgStripBit7 := false } [0xBD, 0x9C, 0x03])
      ⟨.psgB, 0b01, 0x9C⟩ ⟨.psgB, 0b00, 0x03⟩ = true := by decide

/-- V35: no transaction before every operand is read. -/
theorem test_write_without_its_value_overruns : overruns (running Params.profileM [0x5A, 0x20]) 0x42 = true := by decide

/-- V40, V41, V44. -/
theorem test_skip1 :
    goesTo (running Params.profileM [0x50, 0x9F]) 0x42 0 = true ∧ goesTo (running Params.profileM [0x4F, 0x00]) 0x42 0 = true ∧
    overruns (running Params.profileM [0x50]) 0x41 = true := by decide

/-- V23, V33, V34, V42, V43, and the other skips of two operands. -/
theorem test_skip2 :
    goesTo (running Params.profileM [0x52, 0x2B, 0x80]) 0x43 0 = true ∧
    goesTo (running Params.profileM [0x53, 0x30, 0x00]) 0x43 0 = true ∧
    goesTo (running Params.profileM [0x54, 0x08, 0x78]) 0x43 0 = true ∧
    goesTo (running paramsOpm [0x5A, 0x08, 0x78]) 0x43 0 = true ∧
    goesTo (running Params.profileF [0x5A, 0x20, 0x01]) 0x43 0 = true ∧
    goesTo (running Params.profileM [0x5B, 0x20, 0x01]) 0x43 0 = true ∧
    goesTo (running Params.profileM [0x5E, 0x01, 0x20]) 0x43 0 = true ∧
    goesTo (running Params.profileM [0x5F, 0x01, 0x20]) 0x43 0 = true ∧
    goesTo (running Params.profileM [0xBD, 0x9C, 0x03]) 0x43 0 = true := by decide

/-- V52, V53, V7: the jump, and the end wrap after it. -/
theorem test_loop :
    goesTo { running Params.profileM [0x66] with interp.loopDefined := true, interp.loopOffset := 0x46 } 0x46 0 = true ∧
    goesTo { running Params.profileM [0x66] with interp.startOffset := 0x30 } 0x30 0 = true ∧
    goesTo { running Params.profileM [0x66] with interp.loopDefined := true, interp.loopOffset := 0x46, interp.endOffset := 0x46 }
      0x40 0 = true := by decide

/-- V54: a target outside the image is not checked by LOOP itself, and the next fetch overruns. -/
theorem test_loop_target_outside_the_image :
    goesTo { running Params.profileM [0x66] with interp.loopDefined := true, interp.loopOffset := 0x1000 } 0x1000 0
      = true ∧
    overruns { running Params.profileM [0x66] with interp.cursor := 0x1000 } 0x1000 = true := by decide

/-- V45. -/
theorem test_dblk :
    goesTo (running Params.profileM [0x67, 0x66, 0x00, 0x02, 0x00, 0x00, 0x00, 0xAA, 0xBB]) 0x41 0 = true := by decide

/-- V47, V48. -/
theorem test_dblkFull :
    goesTo (running paramsFull [0x67, 0x66, 0x00, 0x02, 0x00, 0x00, 0x00, 0xAA, 0xBB]) 0x49 0 = true ∧
    goesTo (running paramsFull [0x67, 0x66, 0x00, 0x00, 0x00, 0x00, 0x00]) 0x47 0 = true := by decide

/-- V49. -/
theorem test_dblkFull_overruns :
    overruns { running paramsFull [0x67, 0x66, 0x00, 0xFF] with launch.streamLength := 0x50 } 0x50 = true := by decide

/-- V50. -/
theorem test_bseek : goesTo (running Params.profileM [0xE0, 0x10, 0x00, 0x00]) 0x44 0 = true := by decide

/-- V55, V56. -/
theorem test_unrec :
    stepGives (running Params.profileM [0x00]) (fun t => decide (t.interp.cursor = 0x41 ∧ t.sched.phase = .running ∧
      t.traces.diag = [⟨.e5, .opcode 0x00 0x40⟩] ∧ t.traces.bus = [])) = true ∧
    stepGives (running Params.profileM [0xFF]) (fun t => decide (t.interp.cursor = 0x41 ∧ t.sched.armed = true ∧
      t.traces.diag = [⟨.e5, .opcode 0xFF 0x40⟩])) = true := by decide

/-- A placed table word is the first command that runs after reset. -/
theorem test_withFetchWord :
    stepGives (State.reset.withFetchWord 24 0x123461)
      (fun t => decide (t.interp.delayCounter = 0x1234 ∧ t.interp.cursor = 3)) = true ∧
    stepGives (State.reset.withFetchWord 24 0x01205A)
      (fun t => decide (t.traces.bus = [⟨.fma, 0b00, 0x20⟩, ⟨.fma, 0b01, 0x01⟩])) = true := by decide

/-! ### Header and boot (L2.5, L2.6) -/

/-- V60, and the boot of the reset state's empty image. -/
theorem test_boot_of_a_short_image :
    stepGives (powered (song Params.profileM 0x3F [])) (fun t => decide (t.traces.diag = [⟨.e1, .length 0x3F⟩] ∧
      t.sched.haltCode = some .e1 ∧ t.sched.phase = .halted ∧ t.sched.armed = false)) = true ∧
    stepGives State.reset (fun t => decide (t.traces.diag = [⟨.e1, .length 0⟩])) = true := by decide

/-- A song file that cannot be opened (60_exceptions.md, E2). -/
theorem test_boot_of_an_unreadable_file :
    stepGives (powered { song Params.profileF 0x100 [] with sourceResult := .failed .openOp })
      (fun t => decide (t.traces.diag = [⟨.e2, .operation .openOp⟩] ∧ t.sched.haltCode = some .e2)) = true := by decide

/-- V73, V74, V76, V77. -/
theorem test_boot_of_a_dual_declaration :
    stepGives (powered (song Params.profileM 0x100 [(0x0C, 0x40000000)]))
      (fun t => decide (t.traces.diag = [⟨.e3, .field 0x0C⟩])) = true ∧
    stepGives (powered (song Params.profileM 0x100 [(0x08, 0x171), (0x5C, 0x40DA7A64)]))
      (fun t => decide (t.traces.diag = [⟨.e3, .field 0x5C⟩] ∧ t.traces.clock = [] ∧ t.sched.armed = false)) = true ∧
    stepGives (powered (song Params.profileM 0x100 [(0x08, 0x151), (0x50, 0x40369E99)]))
      (fun t => decide (t.traces.diag = [⟨.e3, .field 0x50⟩])) = true ∧
    stepGives (powered (song Params.profileM 0x100 [(0x08, 0x171), (0x2C, 0x40000000), (0x5C, 0x40000000)]))
      (fun t => decide (t.traces.diag = [⟨.e3, .field 0x2C⟩])) = true := by decide

/-- V75: a field gated off by the version is no dual declaration. -/
theorem test_boot_ignores_a_gated_field :
    stepGives (powered (song Params.profileM 0x100 [(0x08, 0x150), (0x50, 0x40369E99)]))
      (fun t => decide (t.sched.phase = .running ∧ t.sched.armed = true)) = true := by decide

/-- R145's example with version 0x0151 in an image long enough to hold the field at 0x50 (log entry 29), and V85's
chip clock. -/
theorem test_boot_offsets_and_clock :
    stepGives (powered (song Params.profileM 0x54 [(0x04, 0x44), (0x08, 0x151), (0x34, 0x0C), (0x50, 0x00369E99)]))
      (fun t => decide (t.interp.cursor = 0x40 ∧ t.interp.startOffset = 0x40 ∧ t.interp.endOffset = 0x48 ∧
        t.interp.loopOffset = 0x1C ∧ t.interp.loopDefined = false ∧ t.config.cfg.fma.clockHz = 3579545 ∧
        t.sched.phase = .running)) = true := by decide

/-- P2's arming state. -/
theorem test_boot_of_program_p2 :
    stepGives (powered songP2) (fun t => decide (t.interp.cursor = 0x100 ∧ t.interp.endOffset = 0x10C ∧
      t.interp.loopOffset = 0x103 ∧ t.interp.loopDefined = true ∧ t.config.dualRouting = true ∧
      t.traces.clock.map ClockRecord.driver = [.fmb, .psg] ∧ t.config.cfg.fmb.clockHz = 14318180 ∧
      t.config.cfg.psg.clockHz = 7159090 ∧ t.traces.bus = [])) = true := by decide

/-- V62: a field past the image reads as 0. -/
theorem test_header_field_past_the_image :
    (song Params.profileM 0x60 [(0x08, 0x171), (0xC8, 0x11111111)]).header.clkC8 = 0 ∧
    (song Params.profileM 0xCB [(0xC8, 0x11111111)]).header.clkC8 = 0 ∧
    (song Params.profileM 0xCC [(0xC8, 0x11111111)]).header.clkC8 = 0x11111111 := by decide

/-- V61, V63 to V65, V80 and W4. -/
theorem test_start_offset :
    startOffsetOf Params.profileM { Header.zero with version := 0x150, dataRel := 0x0C } = 0x40 ∧
    startOffsetOf Params.profileM { Header.zero with version := 0x150, dataRel := 0 } = 0x34 ∧
    startOffsetOf Params.profileM { Header.zero with version := 0x150, dataRel := 0xFFFFFFF0 } = 0x24 ∧
    startOffsetOf Params.profileM { Header.zero with version := 0x171, dataRel := 0x8C } = 0xC0 ∧
    startOffsetOf Params.profileM { Header.zero with version := 0x149, dataRel := 0xFFFFFFFF } = 0x40 := by decide

/-- V66 to V69. -/
theorem test_loop_and_end_offsets :
    loopOffsetOf { Header.zero with loopRel := 0x2A } = 0x46 ∧ loopDefinedOf { Header.zero with loopRel := 0x2A } = true ∧
    loopOffsetOf Header.zero = 0x1C ∧ loopDefinedOf Header.zero = false ∧
    endOffsetOf { Header.zero with eofRel := 0x44 } = 0x48 ∧
    endOffsetOf { Header.zero with eofRel := 0xFFFFFFFE } = 0x02 := by decide

/-- V70 to V72, V78 and W5. -/
theorem test_clock_word_accessors :
    clockOf Params.profileF { Header.zero with version := 0x171, clkC8 := 0xC06D3D32 } .clkC8 = 7159090 ∧
    isDual Params.profileF { Header.zero with version := 0x171, clkC8 := 0xC06D3D32 } .clkC8 = true ∧
    isPresent Params.profileF { Header.zero with version := 0x171, clkC8 := 0x406D3D32 } .clkC8 = true ∧
    isPresent Params.profileF { Header.zero with version := 0x170, clkC8 := 0x406D3D32 } .clkC8 = false ∧
    isDual Params.profileF { Header.zero with version := 0x170, clkC8 := 0x406D3D32 } .clkC8 = false ∧
    clockOf Params.profileM { Header.zero with version := 0x151, clk50 := 0x00369E99 } .clk50 = 3579545 := by decide

/-- V79. -/
theorem test_song_length :
    lengthSeconds Params.profileM { Header.zero with sampleCount := 88200 } = 2 ∧
    lengthSeconds Params.profileM { Header.zero with sampleCount := 88199 } = 1 ∧
    lengthSeconds Params.profileM Header.zero = 0 := by decide

/-! ### Tick and halt (L2.7) -/

/-- V90, V91, V92, V93. -/
theorem test_tick_firings :
    State.reset.tickFires.sched.tickPending = false ∧
    (running Params.profileM []).tickFires.sched.tickPending = true ∧
    (running Params.profileM []).tickFires.tickFires = (running Params.profileM []).tickFires ∧
    ((running Params.profileM []).fatal .e6 (.offset 0)).tickFires =
      (running Params.profileM []).fatal .e6 (.offset 0) := by decide

/-- V93: no step leaves HALTED. -/
theorem test_halted_step :
    (match step ((running Params.profileM []).fatal .e6 (.offset 0)) with
     | .fault .halted => true
     | .next _ => false
     | .refused _ => false) = true := by decide

/-! ### Witnesses: the hypotheses of each statement are met together, each clause at a boundary -/

theorem witness_DecodeOfEncodeIsTheCommand :
    Params.profileF.wf = true ∧ (Instr.wrPsg 0xFF 0xFF).wf Params.profileF = true ∧ paramsFull.wf = true ∧
    (Instr.dblkFull 0x66 0x00 0xFFFFFFFF).wf paramsFull = true := by decide

theorem witness_DecodedCommandsAreWellFormed :
    decode Params.profileF [0x5F, 0x05, 0x01] = .ok (.wrFmb1 0x05 0x01) [] := by decide

theorem witness_UnwiredDriversHaveNoWriteOpcode :
    Params.profileM.classOf 0x5A = .wr .fma ∧ Params.profileF.classOf 0x5E = .wr .fmb0 ∧
    Params.profileF.classOf 0x5F = .wr .fmb1 ∧ Params.profileF.classOf 0xBD = .wr .psg ∧
    Params.profileF.profile.fma = false ∧ Params.profileM.profile.fmb = false ∧ Params.profileM.profile.psg = false := by
  decide

theorem witness_FmaWriteIsTwoTransactions :
    (∃ i : Instr, i = .wrFma2op 0xFF 0xFF ∨ i = .wrFmaOpm 0xFF 0xFF ∨ i = .wrFma1op 0xFF 0xFF) :=
  ⟨.wrFma1op 0xFF 0xFF, .inr (.inr rfl)⟩

theorem witness_SkipsChangeNothingButTheCursor :
    Instr.skipSn 0x9F ∈ [Instr.skipGgst 0x9F, .skipSn 0x9F] ∧
    Instr.skipPsg 1 2 ∈ [Instr.skipSf0 1 2, .skipSf1 1 2, .skipOpm 1 2, .skipFm2op 1 2, .skipFm1op 1 2,
      .skipFmb0 1 2, .skipFmb1 1 2, .skipPsg 1 2] := by decide

/-- The payload ends at the image's last byte, or one byte past it. -/
theorem witness_DataBlockFullSkipsItsPayload :
    let s := running paramsFull [0x67, 0x66, 0x00, 0x02, 0x00, 0x00, 0x00, 0xAA, 0xBB]
    s.interp.cursor.toNat + 7 ≤ s.launch.streamLength.toNat ∧
    s.interp.cursor.toNat + 7 + (2 : Word).toNat ≤ s.launch.streamLength.toNat ∧
    s.launch.streamLength.toNat < s.interp.cursor.toNat + 7 + (3 : Word).toNat := by decide

theorem witness_LoopJumpsToTheStoredTarget :
    ({ State.reset with interp.loopDefined := true } : State).interp.loopDefined = true ∧
    State.reset.interp.loopDefined = false := by decide

/-- For the statements over all commands: a write, a wait, a skip, and a data block that halts. -/
theorem witness_StatementsOverAllCommands :
    execGives (.wrPsg 0x80 0x01) (running Params.profileF []) (fun t => decide (t.sched = (running Params.profileF []).sched)) = true ∧
    execGives (.waitN 0xFFFF) (running Params.profileM []) (fun _ => true) = true ∧
    execGives (.skipSn 0) (running Params.profileM []) (fun _ => true) = true ∧
    execGives (.dblkFull 0 0 1) (running paramsFull []) (fun t => decide (t.sched ≠ (running paramsFull []).sched)) = true := by
  decide

theorem witness_StepRunsTheDecodedCommand :
    (running Params.profileM [0x66]).fetches ∧
    decode (running Params.profileM [0x66]).launch.params (running Params.profileM [0x66]).window = .ok .loop [] := by
  decide

theorem witness_DelayTickDecrementsByOne :
    let s : State := { running Params.profileM [] with interp.delayCounter := 1 }
    s.takesTick ∧ 0 < s.interp.delayCounter := by decide

theorem witness_DelayPassesInItsCountOfSteps :
    let s : State := { running Params.profileM [] with interp.delayCounter := 3 }
    s.sched.phase = .running ∧ s.sched.armed = true ∧ s.sched.handlerBusy = false ∧ 3 ≤ s.interp.delayCounter.toNat ∧
    0 ≤ s.interp.delayCounter.toNat := by decide

/-- A byte of each class at the cursor of a fetching machine. -/
theorem witness_StepsByClass :
    ∀ e ∈ [((0x70 : Byte), OpClass.waits), (0x7F, .waits), (0x61, .waitn), (0x62, .wait735), (0x63, .wait882), (0x66, .loop),
        (0xE0, .bankSeek), (0x00, .unrec), (0xFF, .unrec)],
      (running Params.profileM [e.1]).fetches ∧
      (running Params.profileM [e.1]).fetch? (running Params.profileM [e.1]).interp.cursor = some e.1 ∧
      (running Params.profileM [e.1]).launch.params.classOf e.1 = e.2 := by decide

/-- Both operands in the image, the last at its last byte; one and two operands outside it. -/
theorem witness_LongWaitReadsALittleEndianCount :
    let s := running Params.profileM [0x61, 0x34, 0x12]
    let u := running Params.profileM [0x61, 0x34]
    let v := running Params.profileM [0x61]
    s.sched.armed = true ∧ s.fetch? (s.interp.cursor + 1) = some 0x34 ∧ s.fetch? (s.interp.cursor + 2) = some 0x12 ∧
    u.launch.streamLength.toNat ≤ u.interp.cursor.toNat + 2 ∧
    v.launch.streamLength.toNat ≤ v.interp.cursor.toNat + 2 := by decide

theorem witness_FixedWaitsTake736And883Ticks :
    (running Params.profileM [0x62]).sched.armed = true ∧ (running Params.profileM [0x63]).sched.armed = true := by decide

theorem witness_LoopOpcodeJumpsThenWraps :
    let s : State := { running Params.profileM [0x66] with interp.loopDefined := true }
    let u : State := { s with interp.loopOffset := 0x41 }
    s.fetches ∧ s.sched.armed = true ∧ s.fetch? s.interp.cursor = some 0x66 ∧ s.interp.loopDefined = true ∧
    (running Params.profileM [0x66]).interp.loopDefined = false ∧
    stepGives u (fun t => decide (u.launch.streamLength ≤ t.interp.cursor)) = true := by decide

/-- Three operands in the image, the last at its last byte; two of them in it. -/
theorem witness_BankSeekDiscardsThreeBytes :
    let s := running Params.profileM [0xE0, 0x10, 0x00, 0x00]
    let u := running Params.profileM [0xE0, 0x10, 0x00]
    s.interp.cursor.toNat + 3 < s.launch.streamLength.toNat ∧
    u.launch.streamLength.toNat ≤ u.interp.cursor.toNat + 3 := by decide

/-- A command that ends at the end offset, in a stream whose start is its end. -/
theorem witness_EndCheckFollowsEveryCommand :
    let s : State := { running Params.profileM [0x70] with interp.endOffset := 0x41, interp.startOffset := 0x41 }
    s.fetches ∧ decode s.launch.params s.window = .ok (.waitS 0) [] ∧
    execGives (.waitS 0) s.enterHandler (fun u => decide (u.sched.phase = .running ∧ u.interp.cursor = 0x41)) = true ∧
    stepGives s (fun t => decide (t.interp.cursor = s.interp.endOffset)) = true := by decide

theorem witness_OnlyLoopAndTheEndWrapTransferControl :
    let s := running Params.profileM [0x66]
    let u := running Params.profileM [0x5A, 0x01, 0x02]
    s.fetches ∧ decode s.launch.params s.window = .ok .loop [] ∧
    stepGives s (fun t => decide (t.sched.phase = .running)) = true ∧
    u.fetches ∧ decode u.launch.params u.window = .ok (.wrFma2op 0x01 0x02) [] ∧
    stepGives u (fun t => decide (t.sched.phase = .running)) = true := by decide

/-- The last operand outside the image; every operand outside it; the opcode outside it. -/
theorem witness_AnOverrunHaltsBeforeAnyEffect :
    let s := running Params.profileM [0x5A, 0x20]
    let u := running Params.profileM [0x5A]
    let v := running Params.profileM []
    s.fetches ∧ s.fetch? s.interp.cursor = some 0x5A ∧
    s.launch.streamLength.toNat ≤ s.interp.cursor.toNat + s.launch.params.operandBytes (s.launch.params.classOf 0x5A) ∧
    u.launch.streamLength.toNat ≤ u.interp.cursor.toNat + u.launch.params.operandBytes (u.launch.params.classOf 0x5A) ∧
    v.fetches ∧ v.fetch? v.interp.cursor = none := by decide

theorem witness_TheMachineStepIsThePseudocode : (running Params.profileM []).sched.phase = .running := by decide

/-- Two machines that differ in the pending tick and in the draws taken. -/
theorem witness_TicksDecideOnlyWhen :
    let s := running Params.profileM [0x66]
    let t : State := { running Params.profileM [0x66] with sched.tickPending := true, draws := 7 }
    s.sched.phase = .running ∧ s.sched.armed = true ∧ s.sched.handlerBusy = false ∧ s ≠ t ∧
    s.forgetTicks = t.forgetTicks := by decide

/-- A RUNNING state that meets the invariant, of which a step gives a next state. -/
theorem witness_StepKeepsTheInvariant :
    (booted songP2).Inv ∧ stepGives (booted songP2) (fun _ => true) = true := by
  refine ⟨⟨?_, ?_, ?_, ?_, ?_, ?_, ?_⟩, ?_⟩ <;> decide

/-- A next state from BOOT, from RUNNING, and a next state that is HALTED. -/
theorem witness_StatementsOverAllSteps :
    stepGives (powered songP2) (fun t => decide (t.sched.phase = .running)) = true ∧
    (booted songP2).sched.phase = .running ∧ stepGives (booted songP2) (fun _ => true) = true ∧
    stepGives State.reset (fun t => decide (t.sched.phase = .halted)) = true ∧
    stepGives (running Params.profileM [0x61]) (fun t => decide (t.sched.phase = .halted)) = true := by decide

theorem witness_WriteTimeIsTwoTransactions :
    (Instr.wrPsg 0x80 0x01).wrPort = some .psg ∧
    execGives (.wrPsg 0x80 0x01) (running Params.profileF []) (fun _ => true) = true := by decide

theorem witness_PsgInstanceIsTheTopBit :
    128 ≤ (0x80 : Byte).toNat ∧ 128 ≤ (0xFF : Byte).toNat ∧ (0x7F : Byte).toNat < 128 ∧ (0x00 : Byte).toNat < 128 := by
  decide

theorem witness_ClockWordFields :
    let h : Header := { Header.zero with version := 0x0170 }
    h.version < Params.profileF.minVersion .clkC8 ∧ Params.profileM.minVersion .clk50 ≤ h.version := by decide

theorem witness_FieldsAreGatedByVersion :
    (0x0170 : Word) < Params.profileF.minVersion .clkC8 ∧ Params.profileF.minVersion .clkC8 ≤ (0x0171 : Word) := by decide

theorem witness_LegacyStartIgnoresTheStartField : (0x014F : Word) < 0x0150 ∧ (0x0149 : Word) < 0x0150 := by decide

theorem witness_StartOffsetByVersion : (0x014F : Word) < 0x0150 ∧ (0x0150 : Word) ≤ 0x0150 := by decide

/-- A file source and a memory source, the latter with the shortest image. -/
theorem witness_BootArmsTheMachineAtTheStart :
    (powered songP2).powerOn ∧ songP2.sourceResult = .ready ∧ songP2.params.minHeaderSize ≤ songP2.streamLength ∧
    dualOffender songP2.params songP2.header = none ∧
    (powered (song Params.profileM 0x40 [])).powerOn ∧
    (song Params.profileM 0x40 []).params.profile.source = .memory ∧
    (song Params.profileM 0x40 []).params.minHeaderSize ≤ (song Params.profileM 0x40 []).streamLength ∧
    dualOffender (song Params.profileM 0x40 []).params (song Params.profileM 0x40 []).header = none := by decide

/-- A file that cannot be opened; an image one byte short; two dual declarations, the lower one first. -/
theorem witness_BootHaltsAtTheFirstFailure :
    let a := powered { song Params.profileF 0x100 [] with sourceResult := .failed .readOp }
    let b := powered (song Params.profileM 0x3F [])
    let c := powered (song Params.profileM 0x100 [(0x08, 0x171), (0x2C, 0x40000000), (0x5C, 0x40000000)])
    a.powerOn ∧ a.launch.params.profile.source = .file ∧ a.launch.sourceResult = .failed .readOp ∧
    b.powerOn ∧ b.launch.params.profile.source = .memory ∧ b.launch.streamLength < b.launch.params.minHeaderSize ∧
    c.powerOn ∧ c.launch.params.profile.source = .memory ∧ c.launch.params.minHeaderSize ≤ c.launch.streamLength ∧
    HdrField.clk2C ∈ c.launch.params.dualChecked ∧ isDual c.launch.params c.launch.header .clk2C = true ∧
    (∀ g ∈ c.launch.params.dualChecked, isDual c.launch.params c.launch.header g = true →
      HdrField.clk2C.offset ≤ g.offset) := by decide

theorem witness_HaltedIsFinal :
    let s := (running Params.profileM []).fatal .e6 (.offset 0)
    s.sched.phase = .halted ∧ s.sched.armed = false := by decide

theorem witness_TicksAreNotQueued :
    State.reset.sched.armed = false ∧ (running Params.profileM []).sched.armed = true ∧
    (running Params.profileM []).tickFires.sched.tickPending = true := by decide

theorem witness_TheHandlerRunsOneStep :
    let busy : State := { running Params.profileM [0x66] with sched.handlerBusy := true }
    let idle : State := { running Params.profileM [0x66] with sched.armed := false }
    (running Params.profileM [0x66]).takesTick ∧ busy.sched.phase = .running ∧ busy.sched.handlerBusy = true ∧
    idle.sched.phase = .running ∧ idle.sched.armed = false ∧ idle.sched.tickPending = false := by decide

end Sys2Proof.Tests
end

section
/-! PROOFS. One taken tick as an equation for each of its two courses, a delay tick and a command that leaves the
machine RUNNING, and the statements on delay ticks and on the end check that follow from them. -/
namespace Sys2Proof.Machine

/-! ### The end check -/

/-- The end check writes the cursor alone (40_interpreter_core.md rule R74). -/
theorem State.endCheck_interp (s : State) :
    s.endCheck.interp = { s.interp with cursor := s.interp.wrapped s.interp.cursor } := rfl

/-- The wrap is by equality with the end offset: it leaves the cursor there only where both offsets are one. -/
theorem Interp.startOffset_eq_of_wrapped_eq {i : Interp} {c : Word} (h : i.wrapped c = i.endOffset) :
    i.startOffset = i.endOffset := by
  unfold Interp.wrapped at h
  split at h
  · exact h
  · contradiction

/-- No command writes an offset register (10_state.md rule R28). -/
theorem exec_next_offsets {i : Instr} {s u : State} (h : exec i s = .next u) :
    u.interp.startOffset = s.interp.startOffset ∧ u.interp.loopOffset = s.interp.loopOffset ∧
    u.interp.endOffset = s.interp.endOffset ∧ u.interp.loopDefined = s.interp.loopDefined := by
  rcases exec_cases h with ⟨_, rfl⟩ | ⟨_, _, rfl⟩ | ⟨_, _, _, _, _, _, _, _, rfl⟩ | ⟨_, _, rfl⟩ | ⟨_, rfl⟩ <;> simp

/-- The end check after a command wraps by the offsets held before it. -/
theorem wrapped_of_exec_next {i : Instr} {s u : State} (h : exec i s = .next u) (c : Word) :
    u.interp.wrapped c = s.interp.wrapped c := by
  obtain ⟨hstart, -, hend, -⟩ := exec_next_offsets h
  simp only [Interp.wrapped, hstart, hend]

/-! ### One taken tick -/

/-- A delay tick (40_interpreter_core.md rule R72). -/
theorem step_of_delay {s : State} (ht : s.takesTick) (hd : 0 < s.interp.delayCounter) :
    step s = .next (s.enterHandler.setDelay (s.interp.delayCounter - 1)).exitHandler := by
  rw [step_of_takesTick ht, interpStep_delay (s := s.enterHandler) hd]
  rfl

theorem fetchInstr_of_decode {s : State} {i : Instr} {rest : List Byte}
    (h : decode s.launch.params s.window = .ok i rest) : fetchInstr s = .ok i := by
  simp only [fetchInstr, h]

/-- A tick with no delay left runs the decoded command (40_interpreter_core.md rule R73). -/
theorem step_of_decode {s : State} {i : Instr} {rest : List Byte} (hs : s.fetches)
    (h : decode s.launch.params s.window = .ok i rest) :
    step s = leaveHandler (afterCommand (exec i s.enterHandler)) := by
  obtain ⟨ht, hd⟩ := hs
  have hf : fetchInstr s.enterHandler = .ok i :=
    fetchInstr_of_decode (by rwa [window_congr (State.enterHandler_launch s) rfl])
  rw [step_of_takesTick ht, interpStep_command (s := s.enterHandler) hd hf]

/-- A command that does not halt is followed by the end check and the handler's exit. -/
theorem step_of_exec_running {s u : State} {i : Instr} {rest : List Byte} (hs : s.fetches)
    (h : decode s.launch.params s.window = .ok i rest) (hx : exec i s.enterHandler = .next u)
    (hu : u.sched.phase = .running) : step s = .next u.endCheck.exitHandler := by
  rw [step_of_decode hs h, hx, afterCommand_running hu]
  rfl

/-- Settles O21: the delay tick's equation, and no borrow below a positive counter. -/
theorem delayTickDecrementsByOne : Obligations.DelayTickDecrementsByOne := by
  unfold Obligations.DelayTickDecrementsByOne
  intro s ht hd
  have hcount : (s.interp.delayCounter - 1).toNat + 1 = s.interp.delayCounter.toNat := by bv_omega
  exact ⟨_, step_of_delay ht hd, rfl, hcount, by simp [State.quiet, State.sameButPlayback]⟩

/-- Settles O29: no command writes the start or end offset, so the check that ends the step wraps by those the
state held before it. -/
theorem endCheckFollowsEveryCommand : Obligations.EndCheckFollowsEveryCommand := by
  unfold Obligations.EndCheckFollowsEveryCommand
  intro s u i rest hs hdec hx hu
  have hw : u.interp.wrapped u.interp.cursor = s.interp.wrapped u.interp.cursor :=
    wrapped_of_exec_next hx u.interp.cursor
  refine ⟨_, step_of_exec_running hs hdec hx hu, ?_, fun h => ?_, rfl, rfl, rfl, rfl, rfl⟩
  · rw [State.exitHandler_interp, State.endCheck_interp, hw, Interp.wrapped]
  · rw [State.exitHandler_interp, State.endCheck_interp, hw] at h
    exact Interp.startOffset_eq_of_wrapped_eq h

end Sys2Proof.Machine
end

section
/-! PROOFS. The wait commands of 41_wait.md: a class that one row of the opcode map alone can have, a wait's step
under any map, the run-down of its count, and the statements on the short and the fixed waits. -/
namespace Sys2Proof

/-! ### Classes that fix their row -/

/-- The row of R62's table that has a class under every parameter set, where only one row can have it; none for
the register writes and skips, which several rows share or which depend on the wiring. -/
def OpClass.soleRow : OpClass → Option MapRow
  | .waits => some .waitS
  | .waitn => some .waitN
  | .wait735 => some .wait735
  | .wait882 => some .wait882
  | .loop => some .loop
  | .dataBlk => some .dataBlk
  | .bankSeek => some .bankSeek
  | .wr _ => none
  | .skip1 => none
  | .skip2 => none
  | .unrec => none

theorem MapRow.eq_of_rowClass_soleRow {p : Params} {r r' : MapRow} (h : (p.rowClass r).soleRow = some r') :
    r = r' := by
  cases r
  case opm | fm2op | fm1op | fmb0 | fmb1 | psg =>
    -- A wired driver's row is a write, an unwired driver's a skip: neither class has a sole row.
    simp only [Params.rowClass] at h
    split at h <;> cases h
  case ggst | sn | sf0 | sf1 => cases h
  all_goals cases h; rfl

theorem Params.rowOf_of_soleRow {p : Params} {op : Byte} {r : MapRow} (h : (p.classOf op).soleRow = some r) :
    p.rowOf op = some r := by
  unfold Params.classOf at h
  cases hrow : p.rowOf op with
  | none => rw [hrow] at h; cases h
  | some r' => rw [hrow] at h; rw [MapRow.eq_of_rowClass_soleRow h]

/-- The field `n` of a short wait is its opcode's low nibble (30_encoding.md rule R64). -/
theorem zeroExtend_truncate_nibble (op : Byte) :
    (op.truncate 4).zeroExtend 16 = (op &&& 0x0F).zeroExtend 16 := by
  have hmask : (op &&& 0x0F).toNat = op.toNat % 2 ^ 4 := Nat.and_two_pow_sub_one_eq_mod op.toNat 4
  apply BitVec.eq_of_toNat_eq
  simp only [BitVec.zeroExtend, BitVec.truncate, BitVec.toNat_setWidth, hmask]

end Sys2Proof

namespace Sys2Proof.Machine

/-- An opcode in the image heads the window that the command is read from. -/
theorem window_of_fetch? {s : State} {op : Byte} (h : s.fetch? s.interp.cursor = some op) :
    s.window = op :: s.readable (s.interp.cursor + 1) 6 :=
  readable_succ_some 6 h

theorem decode_window_of_soleRow {s : State} {op : Byte} {r : MapRow}
    (h : s.fetch? s.interp.cursor = some op) (hr : (s.launch.params.classOf op).soleRow = some r) :
    decode s.launch.params s.window =
      decodeRow s.launch.params op (s.readable (s.interp.cursor + 1) 6) r := by
  rw [window_of_fetch? h, decode_cons_some _ (Params.rowOf_of_soleRow hr)]

/-! ### Quiet steps compose -/

theorem State.quiet_refl {s : State} (hb : s.sched.handlerBusy = false) : s.quiet s := by
  simp [State.quiet, State.sameButPlayback, hb]

theorem State.quiet_trans {s t u : State} (h : s.quiet t) (h' : t.quiet u) : s.quiet u := by
  simp_all [State.quiet, State.sameButPlayback]

/-- A quiet step of a RUNNING, armed machine leaves it ready for the next tick. -/
theorem State.ready_of_quiet {s t : State} (h : s.quiet t) (hr : s.sched.phase = .running)
    (ha : s.sched.armed = true) :
    t.sched.phase = .running ∧ t.sched.armed = true ∧ t.sched.handlerBusy = false := by
  obtain ⟨⟨-, -, -, -, -, -, -, -, hb⟩, -, -, hphase, -, harmed⟩ := h
  exact ⟨hphase.trans hr, harmed.trans ha, hb⟩

/-! ### A wait and its run-down -/

/-- A wait passes its own bytes and writes its count (41_wait.md rules R80 to R83). -/
theorem exec_of_waitCount {i : Instr} {d : Half} (h : i.waitCount = some d) (s : State) :
    exec i s = .next ((s.advance i.length).setDelay d) := by
  cases i
  case waitS | waitN | wait735 | wait882 => cases h; rfl
  all_goals cases h

/-- A fetching step at a wait: the count written, its bytes consumed, the end check, and nothing else. -/
theorem step_of_wait {s : State} {i : Instr} {rest : List Byte} {d : Half} (hs : s.fetches)
    (hdec : decode s.launch.params s.window = .ok i rest) (hw : i.waitCount = some d) :
    ∃ t, step s = .next t ∧ t.interp.delayCounter = d ∧
      t.interp.cursor = s.interp.wrapped (s.interp.cursor + BitVec.ofNat 32 i.length) ∧ s.quiet t := by
  have hstep := step_of_exec_running hs hdec (exec_of_waitCount hw s.enterHandler) hs.1.1
  exact ⟨_, hstep, rfl, rfl, by simp [State.quiet, State.sameButPlayback]⟩

theorem run_of_step {s t : State} (h : step s = .next t) (k : Nat) : core.run (k + 1) s = core.run k t := by
  rw [run_succ, h]

/-- An armed machine's delay counts down by one in each step, whatever the tick schedule
(40_interpreter_core.md rules R72, R78). -/
theorem run_of_delay {s : State} {k : Nat} (hr : s.sched.phase = .running) (ha : s.sched.armed = true)
    (hb : s.sched.handlerBusy = false) (hk : k ≤ s.interp.delayCounter.toNat) :
    ∃ t : State, core.run k s = .next t ∧ t.interp.delayCounter.toNat + k = s.interp.delayCounter.toNat ∧
      t.interp.cursor = s.interp.cursor ∧ s.quiet t := by
  induction k generalizing s with
  | zero => exact ⟨s, rfl, rfl, rfl, State.quiet_refl hb⟩
  | succ k ih =>
    have ht : s.takesTick := ⟨hr, by simp [ha], hb⟩
    obtain ⟨t, hstep, hint, hcount, hq⟩ := delayTickDecrementsByOne s ht (by bv_omega)
    obtain ⟨hrt, hat, hbt⟩ := State.ready_of_quiet hq hr ha
    obtain ⟨u, hrun, hcount', hcur, hqu⟩ := ih hrt hat hbt (by omega)
    refine ⟨u, (run_of_step hstep k).trans hrun, by omega, ?_, State.quiet_trans hq hqu⟩
    rw [hcur, hint]

/-- The tick that fetches a wait and `k` ticks of its delay: the count is down by `k`, and the next command has
not been fetched. -/
theorem run_of_wait {s : State} {i : Instr} {rest : List Byte} {d : Half} {k : Nat} (hs : s.fetches)
    (ha : s.sched.armed = true) (hdec : decode s.launch.params s.window = .ok i rest)
    (hw : i.waitCount = some d) (hk : k ≤ d.toNat) :
    ∃ u : State, core.run (k + 1) s = .next u ∧ u.interp.delayCounter.toNat = d.toNat - k ∧
      u.interp.cursor = s.interp.wrapped (s.interp.cursor + BitVec.ofNat 32 i.length) ∧ s.quiet u := by
  obtain ⟨t, hstep, rfl, hcur, hq⟩ := step_of_wait hs hdec hw
  obtain ⟨hrt, hat, hbt⟩ := State.ready_of_quiet hq hs.1.1 ha
  obtain ⟨u, hrun, hcount, hcur', hqu⟩ := run_of_delay hrt hat hbt hk
  exact ⟨u, (run_of_step hstep k).trans hrun, by omega, hcur'.trans hcur, State.quiet_trans hq hqu⟩

/-- Settles O23: a byte of class WAITS decodes to the short wait of its own nibble under any map. -/
theorem shortWaitTakesTheOpcodesNibble : Obligations.ShortWaitTakesTheOpcodesNibble := by
  unfold Obligations.ShortWaitTakesTheOpcodesNibble
  intro s op hs hop hclass
  have hdec := decode_window_of_soleRow (r := .waitS) hop (by rw [hclass]; rfl)
  obtain ⟨t, hstep, hdelay, hcur, hq⟩ := step_of_wait hs hdec rfl
  exact ⟨t, hstep, hdelay.trans (zeroExtend_truncate_nibble op), hcur, hq⟩

/-- Settles O25: both fixed waits are waits of one byte, so one step and run-down serves both counts. -/
theorem fixedWaitsTake736And883Ticks : Obligations.FixedWaitsTake736And883Ticks := by
  unfold Obligations.FixedWaitsTake736And883Ticks
  intro s op count hs ha hop hclass
  have hwait : ∃ i rest d, decode s.launch.params s.window = .ok i rest ∧ i.waitCount = some d ∧
      d.toNat = count ∧ i.length = 1 := by
    rcases hclass with ⟨hc, rfl⟩ | ⟨hc, rfl⟩
    · exact ⟨.wait735, _, _, decode_window_of_soleRow (r := .wait735) hop (by rw [hc]; rfl), rfl, rfl, rfl⟩
    · exact ⟨.wait882, _, _, decode_window_of_soleRow (r := .wait882) hop (by rw [hc]; rfl), rfl, rfl, rfl⟩
  obtain ⟨i, rest, d, hdec, hw, rfl, hlen⟩ := hwait
  constructor
  · obtain ⟨t, hstep, hdelay, hcur, hq⟩ := step_of_wait hs hdec hw
    rw [hlen] at hcur
    exact ⟨t, hstep, congrArg BitVec.toNat hdelay, hcur, hq⟩
  · intro k hk
    obtain ⟨u, hrun, hcount, hcur, -, hbus, htraces, -⟩ := run_of_wait hs ha hdec hw hk
    rw [hlen] at hcur
    exact ⟨u, hrun, hcount, hcur, htraces, hbus⟩

end Sys2Proof.Machine
end

section
/-! PROOFS. The PSG instance that a register byte selects (42_chip_write.md rule R106). -/
namespace Sys2Proof.Machine

/-- Bit 7 as a threshold: the two readings of "the top bit" in 42_chip_write.md rule R106 agree. -/
theorem psgTarget_eq_ite (reg : Byte) : psgTarget reg = if 128 ≤ reg.toNat then .psgB else .psgA := by
  have hbit : reg.getLsbD 7 = decide (128 ≤ reg.toNat) := BitVec.msb_eq_decide reg
  simp only [psgTarget, hbit, decide_eq_true_eq]

/-- Settles O43: the two sides of the threshold at 128. -/
theorem psgInstanceIsTheTopBit : Obligations.PsgInstanceIsTheTopBit := by
  unfold Obligations.PsgInstanceIsTheTopBit
  intro reg
  rw [psgTarget_eq_ite]
  exact ⟨fun hB => if_pos hB, fun hA => if_neg (Nat.not_le.mpr hA)⟩

end Sys2Proof.Machine
end

section
/-! PROOFS. Where a command that does not halt leaves the cursor, and the statement that only LOOP and the end
wrap transfer control (43_stream_control.md rule R121). -/
namespace Sys2Proof.Machine

/-! ### The cursor after a command, before the end check -/

/-- A payload skip that does not halt has passed the whole payload. -/
theorem skipBytes_of_running {s : State} {n : Nat} (h : (s.skipBytes n).sched.phase = .running) :
    s.skipBytes n = s.advance n := by
  rcases skipBytes_or_overrun s n with e | ⟨a, e⟩
  · exact e
  · rw [e] at h
    cases h

theorem State.advance_advance (s : State) (m n : Nat) : (s.advance m).advance n = s.advance (m + n) := by
  simp only [State.advance, State.setCursor, BitVec.add_assoc, BitVec.ofNat_add]

/-- A command other than LOOP that does not halt passes exactly its own bytes. -/
theorem exec_cursor_of_ne_loop {i : Instr} {s u : State} (hx : exec i s = .next u)
    (hu : u.sched.phase = .running) (hi : i ≠ .loop) :
    u.interp.cursor = s.interp.cursor + BitVec.ofNat 32 i.length := by
  cases i
  case loop => exact absurd rfl hi
  case dblkFull compat type size =>
    -- The payload is the one part of a command that is read after dispatch, and so may halt it here.
    simp only [exec, execDblkFull, Host.Outcome.next.injEq] at hx
    subst hx
    rw [skipBytes_of_running hu, State.advance_advance]
    rfl
  all_goals cases hx; rfl

/-- LOOP jumps to one of the two stored offsets (43_stream_control.md rule R119). -/
theorem exec_loop_cursor {s u : State} (hx : exec .loop s = .next u) :
    u.interp.cursor = s.interp.loopOffset ∨ u.interp.cursor = s.interp.startOffset := by
  simp only [exec, execLoop, Host.Outcome.next.injEq] at hx
  subst hx
  exact ite_eq_or_eq _ _ _

/-! ### The cursor after the step -/

theorem Interp.wrapped_eq_or (i : Interp) (c : Word) : i.wrapped c = i.startOffset ∨ i.wrapped c = c :=
  ite_eq_or_eq _ _ _

/-- A fetching step that leaves the machine RUNNING ran its command without a halt, and its cursor is the command's
after the end check. -/
theorem exec_of_step_running {s t : State} {i : Instr} {rest : List Byte} (hs : s.fetches)
    (hdec : decode s.launch.params s.window = .ok i rest) (hstep : step s = .next t)
    (ht : t.sched.phase = .running) :
    ∃ u, exec i s.enterHandler = .next u ∧ u.sched.phase = .running ∧
      t.interp.cursor = s.interp.wrapped u.interp.cursor := by
  obtain ⟨u, hx⟩ := exec_next i s.enterHandler
  have hu : u.sched.phase = .running := by
    by_contra hu
    rw [step_of_decode hs hdec, hx, afterCommand_halted hu] at hstep
    cases hstep
    exact hu ht
  rw [step_of_exec_running hs hdec hx hu] at hstep
  cases hstep
  exact ⟨u, hx, hu, wrapped_of_exec_next hx u.interp.cursor⟩

/-- Settles O30: the step's cursor is the command's after the end check, and the command's is its successor or,
for LOOP, a stored offset. -/
theorem onlyLoopAndTheEndWrapTransferControl : Obligations.OnlyLoopAndTheEndWrapTransferControl := by
  unfold Obligations.OnlyLoopAndTheEndWrapTransferControl
  intro s t i rest hs hdec hstep ht
  obtain ⟨u, hx, hu, hcur⟩ := exec_of_step_running hs hdec hstep ht
  constructor
  · intro hi
    rw [hcur, exec_cursor_of_ne_loop hx hu hi, State.enterHandler_interp]
  · rintro rfl
    rcases Interp.wrapped_eq_or s.interp u.interp.cursor with hwrap | hkeep
    · exact .inr (hcur.trans hwrap)
    · rw [hcur, hkeep]
      exact exec_loop_cursor (s := s.enterHandler) hx

end Sys2Proof.Machine
end

section
/-! PROOFS. The header parser of 44_header_parser.md: headers that agree but for the alternate-mode bits of their
clock words answer every accessor alike (rule R141), and the start offset below version 0x0150 (rule R142). -/
namespace Sys2Proof.Machine

/-! ### The alternate-mode bit of one word -/

theorem xor_and_distrib (v w m : Word) : (v ^^^ w) &&& m = (v &&& m) ^^^ (w &&& m) := by
  ext i hi
  simp only [BitVec.getElem_and, BitVec.getElem_xor, Bool.and_xor_distrib_right]

/-- The clock is bits 29:0 (44_header_parser.md rule R126). -/
theorem clockBits_xor_bit31 (w : Word) : clockBits (w ^^^ 0x80000000) = clockBits w := by
  have hmask : (0x80000000 : Word) &&& 0x3FFFFFFF = 0#32 := by decide
  rw [clockBits, xor_and_distrib, hmask, BitVec.xor_zero, clockBits]

/-- The dual flag is bit 30 (44_header_parser.md rule R127). -/
theorem dualBit_xor_bit31 (w : Word) : dualBit (w ^^^ 0x80000000) = dualBit w := by
  have hbit : (0x80000000 : Word).getLsbD 30 = false := by decide
  rw [dualBit, BitVec.getLsbD_xor, hbit, Bool.xor_false, dualBit]

/-! ### Headers that agree but for the alternate-mode bits -/

/-- One version, and in every field one clock and one dual flag: all that the accessors read of the clock words. -/
structure Header.AgreesButAltMode (h' h : Header) : Prop where
  version : h'.version = h.version
  clockBits (f : HdrField) : clockBits (h'.get f) = clockBits (h.get f)
  dualBit (f : HdrField) : dualBit (h'.get f) = dualBit (h.get f)

/-- A field read as a register and a field read as 0 alike pass a function of the word on. -/
theorem apply_gated {α : Type} (r : Word → α) (p : Params) (h : Header) (f : HdrField) :
    r (gated p h f) = if fieldValid p h f then r (h.get f) else r 0 :=
  apply_ite r _ _ _

section
variable {h h' : Header} (H : h'.AgreesButAltMode h) (p : Params)
include H

/-- The version gate reads no clock word (44_header_parser.md rule R125). -/
theorem fieldValid_of_agrees (f : HdrField) : fieldValid p h' f = fieldValid p h f := by
  rw [fieldValid, H.version, fieldValid]

theorem clockOf_of_agrees (f : HdrField) : clockOf p h' f = clockOf p h f := by
  simp only [clockOf, apply_gated clockBits, fieldValid_of_agrees H, H.clockBits]

theorem isDual_of_agrees (f : HdrField) : isDual p h' f = isDual p h f := by
  simp only [isDual, apply_gated dualBit, fieldValid_of_agrees H, H.dualBit]

theorem isPresent_of_agrees (f : HdrField) : isPresent p h' f = isPresent p h f := by
  simp only [isPresent, clockOf_of_agrees H]

/-- Validation reads the dual flags alone (44_header_parser.md rule R133). -/
theorem dualOffender_of_agrees : dualOffender p h' = dualOffender p h := by
  simp only [dualOffender, isDual_of_agrees H]

/-- A clock request reads the clock and the presence of the driver's chip (44_header_parser.md rule R136). -/
theorem requestHz_of_agrees (d : Driver) : requestHz p h' d = requestHz p h d := by
  simp only [requestHz, chipHz, isPresent_of_agrees H, clockOf_of_agrees H]

end

/-! ### Flipping the bits of a header -/

/-- A header's field with its bit 31 flipped where `flip` says so. -/
def Header.flipped (h : Header) (flip : HdrField → Bool) (f : HdrField) : Word :=
  if flip f = true then h.get f ^^^ 0x80000000 else h.get f

/-- A reading of a word that does not depend on bit 31 reads a flipped field as it was. -/
theorem Header.apply_flipped {α : Type} {r : Word → α} (hr : ∀ w, r (w ^^^ 0x80000000) = r w) (h : Header)
    (flip : HdrField → Bool) (f : HdrField) : r (h.flipped flip f) = r (h.get f) := by
  unfold Header.flipped
  split
  · exact hr (h.get f)
  · rfl

/-- A header with bit 31 flipped in any of its seven clock words. -/
def Header.flipAltModes (h : Header) (flip : HdrField → Bool) : Header :=
  { h with
    clk0C := h.flipped flip .clk0C, clk2C := h.flipped flip .clk2C, clk30 := h.flipped flip .clk30
    clk50 := h.flipped flip .clk50, clk54 := h.flipped flip .clk54, clk5C := h.flipped flip .clk5C
    clkC8 := h.flipped flip .clkC8 }

/-- Each field of the flipped header is a clock word, perhaps flipped, or a field left as it was. -/
theorem Header.apply_get_flipAltModes {α : Type} {r : Word → α} (hr : ∀ w, r (w ^^^ 0x80000000) = r w)
    (h : Header) (flip : HdrField → Bool) (f : HdrField) : r ((h.flipAltModes flip).get f) = r (h.get f) := by
  cases f
  case eofRel | version | sampleCount | loopRel | dataRel => rfl
  all_goals exact Header.apply_flipped hr h flip _

theorem Header.flipAltModes_agrees (h : Header) (flip : HdrField → Bool) :
    (h.flipAltModes flip).AgreesButAltMode h where
  version := rfl
  clockBits := h.apply_get_flipAltModes clockBits_xor_bit31 flip
  dualBit := h.apply_get_flipAltModes dualBit_xor_bit31 flip

/-- Settles O46: the flipped header agrees with the header but for the alternate-mode bits, and every accessor
answers such headers alike. -/
theorem alternateModeBitIsIgnored : Obligations.AlternateModeBitIsIgnored := by
  unfold Obligations.AlternateModeBitIsIgnored
  intro p h flip _ _
  have H : (h.flipAltModes flip).AgreesButAltMode h := h.flipAltModes_agrees flip
  exact ⟨fun f => ⟨clockOf_of_agrees H p f, isDual_of_agrees H p f, isPresent_of_agrees H p f⟩,
    dualOffender_of_agrees H p, requestHz_of_agrees H p⟩

/-! ### The start offset -/

/-- Below version 0x0150 the data starts at the legacy constant (44_header_parser.md rule R128). -/
theorem startOffsetOf_of_version_lt {h : Header} (hv : h.version < 0x0150) (p : Params) :
    startOffsetOf p h = p.legacyStart :=
  if_pos hv

/-- Settles O48: the header with another word at 0x34 has the same version, so both starts are the legacy one. -/
theorem legacyStartIgnoresTheStartField : Obligations.LegacyStartIgnoresTheStartField := by
  unfold Obligations.LegacyStartIgnoresTheStartField
  intro p h w hv
  have hstart : startOffsetOf p h = p.legacyStart := startOffsetOf_of_version_lt hv p
  have hstart' : startOffsetOf p { h with dataRel := w } = p.legacyStart :=
    startOffsetOf_of_version_lt (h := { h with dataRel := w }) hv p
  exact ⟨hstart'.trans hstart.symm, hstart⟩

end Sys2Proof.Machine
end

section
/-! PROOFS. The encoding of 30_encoding.md: a decoder reads its operands one byte after another, a row's opcode is
decoded by that row, and the statements on decoding, on its lengths, on the default map and on unwired drivers. -/
namespace Sys2Proof

/-! ### Operands read one after another -/

/-- The head of a byte sequence given to what reads on, or the error where no byte is left. -/
def takeByte (e : DecodeError) (k : Byte → List Byte → Decoded) : List Byte → Decoded
  | [] => .error e
  | b :: rest => k b rest

theorem withOne_eq_takeByte (k : Byte → Instr) :
    withOne k = takeByte .missingOperand fun b rest => .ok (k b) rest := by
  funext bs
  cases bs <;> rfl

theorem withTwo_eq_takeByte (k : Byte → Byte → Instr) :
    withTwo k = takeByte .missingOperand fun b => withOne (k b) := by
  funext bs
  rcases bs with _ | ⟨b1, _ | ⟨b2, rest⟩⟩ <;> rfl

theorem withThree_eq_takeByte (k : Byte → Byte → Byte → Instr) :
    withThree k = takeByte .missingOperand fun b => withTwo (k b) := by
  funext bs
  rcases bs with _ | ⟨b1, _ | ⟨b2, _ | ⟨b3, rest⟩⟩⟩ <;> rfl

/-- A data block's head is its compatibility byte, its type and the four bytes of its size. -/
theorem withBlockHead_eq_takeByte :
    withBlockHead = takeByte .missingOperand fun c => takeByte .missingOperand fun y =>
      takeByte .missingOperand fun b0 => withThree fun b1 b2 b3 => .dblkFull c y (le32 b0 b1 b2 b3) := by
  funext bs
  rcases bs with _ | ⟨b1, _ | ⟨b2, _ | ⟨b3, _ | ⟨b4, _ | ⟨b5, _ | ⟨b6, rest⟩⟩⟩⟩⟩⟩ <;> rfl

/-! ### Decoding what was encoded -/

/-- The opcode that the encoder writes for a row is decoded by that row. -/
theorem decode_opcodeOf {p : Params} {r : MapRow} (hp : p.wf = true) (h : p.hasRow r = true) (bs : List Byte) :
    decode p (p.opcodeOf r :: bs) = decodeRow p (p.opcodeOf r) bs r :=
  decode_cons_some bs (rowOf_opcodeOf hp h)

/-- Settles O2: the encoder's opcode byte has the command's row, and the row reads the operands that the encoder
wrote. -/
theorem decodeOfEncodeIsTheCommand : Obligations.DecodeOfEncodeIsTheCommand := by
  unfold Obligations.DecodeOfEncodeIsTheCommand
  intro p i rest hp hi
  cases i
  case waitS n =>
    refine (decode_cons_some rest (rowOf_waits hp n)).trans ?_
    rw [decodeRow, nibble_of_waits]
  case waitN c =>
    refine (decode_opcodeOf hp hi _).trans ?_
    simp [decodeRow, withTwo, le16_byteOf]
  case dblkFull c y size =>
    obtain ⟨hrow, hmode⟩ : p.hasRow .dataBlk = true ∧ p.dataBlockMode = .skipFull := by simpa [Instr.wf] using hi
    refine (decode_opcodeOf hp hrow _).trans ?_
    simp [decodeRow, hmode, withBlockHead, le32_byteOf]
  case unrec op => exact decode_cons_none rest (by simpa [Instr.wf] using hi)
  case wait735 | wait882 | skipGgst | skipSn | skipSf0 | skipSf1 | loop | bseek => exact decode_opcodeOf hp hi _
  all_goals
    -- The rows whose command depends on the wiring, `FMA_FIELD` or the data-block mode.
    simp only [Instr.wf, Bool.and_eq_true, Bool.not_eq_true', decide_eq_true_eq] at hi
    obtain ⟨hrow, hcond⟩ := hi
    refine (decode_opcodeOf hp hrow _).trans ?_
    simp [decodeRow, withTwo, hcond]

/-! ### What decodes is well formed -/

theorem withOne_eq_ok {k : Byte → Instr} {bs rest : List Byte} {i : Instr} (h : withOne k bs = .ok i rest) :
    ∃ b, i = k b := by
  rcases bs with _ | ⟨b, rest⟩ <;> cases h
  exact ⟨b, rfl⟩

theorem withTwo_eq_ok {k : Byte → Byte → Instr} {bs rest : List Byte} {i : Instr}
    (h : withTwo k bs = .ok i rest) : ∃ b1 b2, i = k b1 b2 := by
  rcases bs with _ | ⟨b1, _ | ⟨b2, rest⟩⟩ <;> cases h
  exact ⟨b1, b2, rfl⟩

theorem withThree_eq_ok {k : Byte → Byte → Byte → Instr} {bs rest : List Byte} {i : Instr}
    (h : withThree k bs = .ok i rest) : ∃ b1 b2 b3, i = k b1 b2 b3 := by
  rcases bs with _ | ⟨b1, _ | ⟨b2, _ | ⟨b3, rest⟩⟩⟩ <;> cases h
  exact ⟨b1, b2, b3, rfl⟩

theorem withBlockHead_eq_ok {bs rest : List Byte} {i : Instr} (h : withBlockHead bs = .ok i rest) :
    ∃ c y size, i = .dblkFull c y size := by
  rcases bs with _ | ⟨b1, _ | ⟨b2, _ | ⟨b3, _ | ⟨b4, _ | ⟨b5, _ | ⟨b6, rest⟩⟩⟩⟩⟩⟩ <;> cases h
  exact ⟨_, _, _, rfl⟩

/-- A row of the map decodes to commands of that row alone, under the row's condition (30_encoding.md rule R62). -/
theorem wf_of_decodeRow_eq_ok {p : Params} {op : Byte} {r : MapRow} {bs rest : List Byte} {i : Instr}
    (hr : p.hasRow r = true) (h : decodeRow p op bs r = .ok i rest) : i.wf p = true := by
  cases r
  case waitS | wait735 | wait882 | loop => cases h; exact hr
  case ggst | sn => obtain ⟨b, rfl⟩ := withOne_eq_ok h; exact hr
  case waitN | sf0 | sf1 => obtain ⟨b1, b2, rfl⟩ := withTwo_eq_ok h; exact hr
  case bankSeek => obtain ⟨b1, b2, b3, rfl⟩ := withThree_eq_ok h; exact hr
  case dataBlk =>
    rw [decodeRow] at h
    split at h
    · next hmode => cases h; simp [Instr.wf, hr, hmode]
    · next hmode =>
      obtain ⟨c, y, size, rfl⟩ := withBlockHead_eq_ok h
      cases hm : p.dataBlockMode
      · exact absurd hm hmode
      · simp [Instr.wf, hr, hm]
  case opm | fm2op | fm1op | fmb0 | fmb1 | psg =>
    obtain ⟨b1, b2, rfl⟩ := withTwo_eq_ok h
    split <;> simp_all [Instr.wf]

/-- Settles O3: the command is of the row that claims the opcode byte, or no row claims it. -/
theorem decodedCommandsAreWellFormed : Obligations.DecodedCommandsAreWellFormed := by
  unfold Obligations.DecodedCommandsAreWellFormed
  intro p bs rest i h
  cases bs with
  | nil => cases h
  | cons op bs =>
    cases hrow : p.rowOf op with
    | none =>
      rw [decode_cons_none bs hrow] at h
      cases h
      simp [Instr.wf, hrow]
    | some r =>
      rw [decode_cons_some bs hrow] at h
      exact wf_of_decodeRow_eq_ok (hasRow_of_rowOf hrow) h

/-! ### How many bytes decoding takes -/

/-- Decoding the operand bytes `bs` took exactly `n` of them, or failed because fewer are there. -/
def Decoded.Takes (n : Nat) (bs : List Byte) : Decoded → Prop
  | .ok _ rest => n ≤ bs.length ∧ rest = bs.drop n
  | .error e => e = .missingOperand ∧ bs.length < n

theorem takes_zero (i : Instr) (bs : List Byte) : (Decoded.ok i bs).Takes 0 bs :=
  ⟨Nat.zero_le _, rfl⟩

theorem takes_takeByte {k : Byte → List Byte → Decoded} {n : Nat} (h : ∀ b rest, (k b rest).Takes n rest)
    (bs : List Byte) : (takeByte .missingOperand k bs).Takes (n + 1) bs := by
  cases bs with
  | nil => exact ⟨rfl, Nat.succ_pos n⟩
  | cons b rest =>
    have hk := h b rest
    rw [takeByte]
    cases hd : k b rest with
    | ok i r => rw [hd] at hk; exact ⟨Nat.succ_le_succ hk.1, hk.2⟩
    | error e => rw [hd] at hk; exact ⟨hk.1, Nat.succ_lt_succ hk.2⟩

theorem takes_withOne (k : Byte → Instr) (bs : List Byte) : (withOne k bs).Takes 1 bs := by
  rw [withOne_eq_takeByte]
  exact takes_takeByte (fun b rest => takes_zero (k b) rest) bs

theorem takes_withTwo (k : Byte → Byte → Instr) (bs : List Byte) : (withTwo k bs).Takes 2 bs := by
  rw [withTwo_eq_takeByte]
  exact takes_takeByte (fun b => takes_withOne (k b)) bs

theorem takes_withThree (k : Byte → Byte → Byte → Instr) (bs : List Byte) : (withThree k bs).Takes 3 bs := by
  rw [withThree_eq_takeByte]
  exact takes_takeByte (fun b => takes_withTwo (k b)) bs

theorem takes_withBlockHead (bs : List Byte) : (withBlockHead bs).Takes 6 bs := by
  rw [withBlockHead_eq_takeByte]
  exact takes_takeByte (fun _ => takes_takeByte fun _ => takes_takeByte fun _ => takes_withThree _) bs

/-- A row takes the operand bytes of its class (30_encoding.md rule R61). -/
theorem takes_decodeRow (p : Params) (op : Byte) (bs : List Byte) (r : MapRow) :
    (decodeRow p op bs r).Takes (p.operandBytes (p.rowClass r)) bs := by
  cases r
  case waitS | wait735 | wait882 | loop => exact takes_zero _ bs
  case ggst | sn => exact takes_withOne _ bs
  case waitN | sf0 | sf1 => exact takes_withTwo _ bs
  case bankSeek => exact takes_withThree _ bs
  case dataBlk =>
    simp only [decodeRow, Params.rowClass, Params.operandBytes]
    split
    · exact takes_zero _ bs
    · exact takes_withBlockHead bs
  case opm | fm2op | fm1op | fmb0 | fmb1 | psg =>
    -- The write and the skip of one row have two operand bytes alike.
    simp only [decodeRow, Params.rowClass]
    split <;> exact takes_withTwo _ bs

/-- Decoding takes the operand bytes of the opcode's class. -/
theorem takes_decode (p : Params) (op : Byte) (bs : List Byte) :
    (decode p (op :: bs)).Takes (p.operandBytes (p.classOf op)) bs := by
  unfold Params.classOf
  cases hrow : p.rowOf op with
  | none => rw [decode_cons_none bs hrow]; exact takes_zero _ bs
  | some r => rw [decode_cons_some bs hrow]; exact takes_decodeRow p op bs r

/-- Settles O4: each operand form takes its bytes one by one, and the form is the class's. -/
theorem lengthIsFixedByTheOpcodesClass : Obligations.LengthIsFixedByTheOpcodesClass := by
  unfold Obligations.LengthIsFixedByTheOpcodesClass
  intro p op bs
  have h := takes_decode p op bs
  cases hd : decode p (op :: bs) <;> rw [hd] at h <;> exact h

/-! ### Written-out words, the default map, unwired drivers -/

/-- Settles O1: each word evaluates to its command. -/
theorem wordsDecodeAsTheSpecWritesThem : Obligations.WordsDecodeAsTheSpecWritesThem := by
  unfold Obligations.WordsDecodeAsTheSpecWritesThem
  decide

/-- The default map lists one opcode for every row but the short waits (30_encoding.md rule R62). -/
theorem mapOpcodes_default_length {r : MapRow} (h : r ≠ .waitS) : (mapOpcodes defaultOpcodeMap r).length = 1 := by
  cases r
  case waitS => exact absurd rfl h
  all_goals rfl

/-- The short waits are no row that a driver port can have. -/
theorem waitS_not_mem_wrRows (p : Params) : .waitS ∉ p.wrRows := by
  simp only [Params.wrRows, List.mem_append, not_or]
  refine ⟨⟨?_, ?_⟩, ?_⟩
  · cases p.fmaField <;> split <;> decide
  · split <;> decide
  · split <;> decide

/-- Settles O5: the map and the selector table are fixed, and every row a port can have has one opcode. -/
theorem defaultParametersAreWellFormed : Obligations.DefaultParametersAreWellFormed := by
  unfold Obligations.DefaultParametersAreWellFormed
  intro pr f m
  have hwrites : ({ Params.ofProfile pr with fmaField := f, dataBlockMode := m } : Params).mapWrites = true := by
    simp only [Params.mapWrites, List.all_eq_true, decide_eq_true_eq]
    intro r hr
    exact mapOpcodes_default_length fun e => waitS_not_mem_wrRows _ (e ▸ hr)
  have hmap : (mapTotal defaultOpcodeMap && mapWaits defaultOpcodeMap && mapSingles defaultOpcodeMap) = true := by
    decide
  have hsel : defaultSel.wf = true := by decide
  unfold Params.wf
  rw [hwrites]
  simp only [Params.ofProfile, hmap, hsel, Bool.and_self]

/-- A row of class WR names a port of a wired driver (42_chip_write.md rule R110). -/
theorem wired_of_rowClass_wr {p : Params} {r : MapRow} {port : WrPort} (h : p.rowClass r = .wr port) :
    p.profile.wired port.driver = true := by
  cases r
  case opm | fm2op | fm1op | fmb0 | fmb1 | psg =>
    simp only [Params.rowClass] at h
    split at h <;> cases h
    simp_all [Params.fmaAt, Profile.wired, WrPort.driver]
  all_goals cases h

theorem wired_of_classOf_wr {p : Params} {op : Byte} {port : WrPort} (h : p.classOf op = .wr port) :
    p.profile.wired port.driver = true := by
  unfold Params.classOf at h
  split at h
  · exact wired_of_rowClass_wr h
  · cases h

/-- Settles O6: a class WR comes from a row whose condition names the port's driver. -/
theorem unwiredDriversHaveNoWriteOpcode : Obligations.UnwiredDriversHaveNoWriteOpcode := by
  unfold Obligations.UnwiredDriversHaveNoWriteOpcode
  intro p
  refine ⟨fun op port => wired_of_classOf_wr, fun hfma => ?_, fun hfmb => ?_, fun hpsg => ?_⟩
  · simp [Params.rowClass, Params.fmaAt, hfma]
  · simp [Params.rowClass, hfmb]
  · simp [Params.rowClass, hpsg]

end Sys2Proof
end

section
/-! PROOFS. The chip bus of 42_chip_write.md: strobe lines, the pin events of a list of transactions and their
time, a driver write by port, and the statements on transactions, driver writes and selectors. -/
namespace Sys2Proof.Machine

/-! ### Strobe lines -/

theorem Strobes.get_set (b : Strobes) (t u : Target) (on : Bool) :
    (b.set t on).get u = if u = t then on else b.get u := by
  cases t <;> cases u <;> rfl

/-- Asserting and deasserting one strobe of lines all deasserted leaves them so (10_state.md rule R34). -/
theorem Strobes.off_pulse (t : Target) : (Strobes.off.set t true).set t false = Strobes.off := by
  cases t <;> rfl

/-- Settles O40: `busTx` appends the events in this order, and the strobe it asserts is deasserted again. -/
theorem busTransactionFollowsItsSequence : Obligations.BusTransactionFollowsItsSequence := by
  unfold Obligations.BusTransactionFollowsItsSequence
  intro s t sel byte
  have hstb : (s.busTx t sel byte).bus.stb.get t = false := by
    rw [State.busTx_bus_stb, Strobes.get_set, if_pos rfl]
  exact ⟨rfl, rfl, rfl, rfl, hstb, rfl⟩

/-! ### Pin events of a list of transactions -/

/-- Among the events of one transaction its own strobe is the only one ever asserted. -/
theorem strobesAfter_take_pins (r : BusRecord) (n : Nat) :
    ∃ on, strobesAfter (r.pins.take n) = Strobes.off.set r.target on := by
  obtain ⟨t, sel, byte⟩ := r
  -- Asserted after the third and the fourth event alone.
  rcases n with _ | _ | _ | _ | _ | n
  · exact ⟨false, by cases t <;> rfl⟩
  · exact ⟨false, by cases t <;> rfl⟩
  · exact ⟨false, by cases t <;> rfl⟩
  · exact ⟨true, rfl⟩
  · exact ⟨true, rfl⟩
  · rcases n with _ | _ | n <;> exact ⟨false, by cases t <;> simp [BusRecord.pins] <;> rfl⟩

theorem Strobes.count_off_set (t : Target) (on : Bool) : (Strobes.off.set t on).count ≤ 1 := by
  cases t <;> cases on <;> decide

/-- A whole transaction's events leave lines all deasserted as they were. -/
theorem strobesAfter_pins_append (r : BusRecord) (l : List PinEvent) :
    strobesAfter (r.pins ++ l) = strobesAfter l := by
  rw [strobesAfter, List.foldl_append]
  exact congrArg (fun b => l.foldl Strobes.after b) (Strobes.off_pulse r.target)

/-- Settles O39: a cut of the events lies inside one transaction, after whole ones that left every strobe
deasserted. -/
theorem atMostOneStrobeAtAnyInstant : Obligations.AtMostOneStrobeAtAnyInstant := by
  unfold Obligations.AtMostOneStrobeAtAnyInstant
  intro l n
  induction l generalizing n with
  | nil => exact ⟨by rw [List.flatMap_nil, List.take_nil]; decide, rfl⟩
  | cons r l ih =>
    rw [List.flatMap_cons, strobesAfter_pins_append]
    refine ⟨?_, (ih n).2⟩
    rcases Nat.le_total n r.pins.length with hn | hn
    · obtain ⟨on, hon⟩ := strobesAfter_take_pins r n
      rw [List.take_append_of_le_length hn, hon]
      exact Strobes.count_off_set r.target on
    · rw [List.take_append, List.take_of_length_le hn, strobesAfter_pins_append]
      exact (ih _).1

/-! ### The time of pin events -/

theorem pinMicros_append (l l' : List PinEvent) : pinMicros (l ++ l') = pinMicros l + pinMicros l' := by
  induction l with
  | nil => exact (Nat.zero_add _).symm
  | cons e l ih => cases e <;> simp only [List.cons_append, pinMicros, ih, Nat.add_assoc]

/-- One transaction takes its family's four waits (42_chip_write.md rule R108). -/
theorem pinMicros_pins (r : BusRecord) :
    pinMicros r.pins = Config.holdMicros .setup r.target.family + Config.holdMicros .pulse r.target.family +
      Config.holdMicros .hold r.target.family + Config.holdMicros .recovery r.target.family := by
  simp only [BusRecord.pins, pinMicros]
  omega

/-! ### A driver write by port -/

/-- The chip that a write through a port goes to (42_chip_write.md rules R101, R102, R105). -/
def portTarget (reg : Byte) : WrPort → Target
  | .fma => .fma
  | .fmb0 => .fmb
  | .fmb1 => .fmb
  | .psg => psgTarget reg

/-- The register byte that a write through a port sends (42_chip_write.md rules R101, R102, R104). -/
def portRegByte (strip : Bool) (reg : Byte) : WrPort → Byte
  | .fma => reg
  | .fmb0 => reg
  | .fmb1 => reg
  | .psg => psgIndex strip reg

theorem portTarget_family (reg : Byte) (port : WrPort) : (portTarget reg port).family = port.driver := by
  cases port
  case psg => simp only [portTarget, psgTarget]; split <;> rfl
  all_goals rfl

/-- A driver write is the two phases at the port's selector pair (42_chip_write.md rule R93). -/
theorem State.portWrite_eq_twoPhase (s : State) (port : WrPort) (reg val : Byte) :
    s.portWrite port reg val = s.twoPhase (portTarget reg port) (s.selPair port)
      (portRegByte s.launch.params.psgStripBit7 reg port) val := by
  cases port <;> rfl

/-- Clearing bit 7 is reading the other seven bits (42_chip_write.md rule R104). -/
theorem psgIndex_eq_ite (strip : Bool) (reg : Byte) :
    psgIndex strip reg = if strip then BitVec.ofNat 8 (reg.toNat % 128) else reg := by
  have hmask : reg &&& 0x7F = BitVec.ofNat 8 (reg.toNat % 128) := by
    apply BitVec.eq_of_toNat_eq
    rw [BitVec.toNat_and, BitVec.toNat_ofNat]
    exact (Nat.and_two_pow_sub_one_eq_mod reg.toNat 7).trans (by omega)
  rw [psgIndex, hmask]

/-- Settles O41: all four are the two phases of one chip, which write the bus and its traces alone. -/
theorem driverWritesAreRegisterPhaseThenDataPhase : Obligations.DriverWritesAreRegisterPhaseThenDataPhase := by
  unfold Obligations.DriverWritesAreRegisterPhaseThenDataPhase
  intro s reg val
  refine ⟨State.twoPhase_traces_bus .., State.twoPhase_traces_bus .., State.twoPhase_traces_bus .., ?_, ?_⟩
  · rw [← psgIndex_eq_ite]
    exact State.twoPhase_traces_bus ..
  · intro t ht
    have hphase : ∃ target sel r, t = s.twoPhase target sel r val := by
      simp only [List.mem_cons, List.not_mem_nil, or_false] at ht
      rcases ht with rfl | rfl | rfl | rfl <;> exact ⟨_, _, _, rfl⟩
    obtain ⟨target, sel, r, rfl⟩ := hphase
    exact ⟨rfl, rfl, rfl, rfl, rfl, rfl, rfl, rfl⟩

/-- Settles O44: the table is fixed, so each port's lines evaluate. -/
theorem defaultSelectorLines : Obligations.DefaultSelectorLines := by
  unfold Obligations.DefaultSelectorLines
  refine ⟨rfl, rfl, fun port => ?_, fun port => ?_, rfl, rfl, rfl⟩ <;> cases port <;> decide

end Sys2Proof.Machine
end

section
/-! PROOFS. What each command does (41_wait.md, 42_chip_write.md, 43_stream_control.md): one equation or effect per
command or per kind of command, what every command leaves alone, and the statements on them. -/
namespace Sys2Proof.Machine

/-! ### Waits, skips, jumps, unrecognized opcodes -/

/-- Settles O7: each is a wait of its own count and length. -/
theorem waitCommandsWriteTheDelayCounter : Obligations.WaitCommandsWriteTheDelayCounter := by
  unfold Obligations.WaitCommandsWriteTheDelayCounter
  intro s
  have hnibble (n : Nibble) : (Instr.waitS n).waitCount = some (BitVec.ofNat 16 n.toNat) :=
    congrArg some (BitVec.ofNat_toNat 16 n).symm
  exact ⟨fun n => exec_of_waitCount (hnibble n) s, fun _ => exec_of_waitCount rfl s, exec_of_waitCount rfl s,
    exec_of_waitCount rfl s⟩

/-- Settles O11: each is the cursor's advance past its bytes. -/
theorem skipsChangeNothingButTheCursor : Obligations.SkipsChangeNothingButTheCursor := by
  unfold Obligations.SkipsChangeNothingButTheCursor
  intro s a b c
  refine ⟨fun i hi => ?_, fun i hi => ?_, rfl⟩ <;>
    simp only [List.mem_cons, List.not_mem_nil, or_false] at hi
  · rcases hi with rfl | rfl <;> rfl
  · rcases hi with rfl | rfl | rfl | rfl | rfl | rfl | rfl | rfl <;> rfl

/-- Settles O12: NOOP mode passes the opcode byte. -/
theorem dataBlockNoopConsumesTheOpcodeAlone : Obligations.DataBlockNoopConsumesTheOpcodeAlone := by
  unfold Obligations.DataBlockNoopConsumesTheOpcodeAlone
  intro s
  rfl

/-- LOOP writes the cursor alone (43_stream_control.md rule R119). -/
theorem exec_loop (s : State) : exec .loop s =
    .next (s.setCursor (if s.interp.loopDefined = true then s.interp.loopOffset else s.interp.startOffset)) := rfl

/-- Settles O14: the two branches of LOOP. -/
theorem loopJumpsToTheStoredTarget : Obligations.LoopJumpsToTheStoredTarget := by
  unfold Obligations.LoopJumpsToTheStoredTarget
  intro s
  refine ⟨fun h => ?_, fun h => ?_⟩ <;> rw [exec_loop, h] <;> rfl

/-- Settles O15: the opcode byte passed and its record appended. -/
theorem unrecognizedOpcodeIsLoggedAndPassed : Obligations.UnrecognizedOpcodeIsLoggedAndPassed := by
  unfold Obligations.UnrecognizedOpcodeIsLoggedAndPassed
  intro s x
  rfl

/-! ### The payload skip -/

/-- Reads that all lie in the image pass that many bytes. -/
theorem skipBytes_of_le {s : State} {n : Nat} (h : s.interp.cursor.toNat + n ≤ s.launch.streamLength.toNat) :
    s.skipBytes n = s.advance n :=
  if_pos (.inr h)

/-- Reads that start in the image or at its end and leave it halt at its end. -/
theorem skipBytes_of_lt {s : State} {n : Nat} (hc : s.interp.cursor.toNat ≤ s.launch.streamLength.toNat)
    (h : s.launch.streamLength.toNat < s.interp.cursor.toNat + n) :
    s.skipBytes n = s.overrun s.launch.streamLength := by
  rcases skipBytes_cases s n with ⟨hn, -⟩ | ⟨-, -, e⟩ | ⟨-, hge, e⟩
  · omega
  · exact e
  · rw [e, show s.interp.cursor = s.launch.streamLength from BitVec.eq_of_toNat_eq (by omega)]

/-- A cursor moved within the image does not wrap (10_state.md rule R25). -/
theorem toNat_advance_cursor {s : State} {n : Nat}
    (h : s.interp.cursor.toNat + n ≤ s.launch.streamLength.toNat) :
    (s.advance n).interp.cursor.toNat = s.interp.cursor.toNat + n := by
  have := s.launch.streamLength.isLt
  rw [State.advance_interp_cursor, BitVec.toNat_add, BitVec.toNat_ofNat]
  omega

/-- Settles O13: the skip after the seven bytes, on both sides of the image's end. -/
theorem dataBlockFullSkipsItsPayload : Obligations.DataBlockFullSkipsItsPayload := by
  unfold Obligations.DataBlockFullSkipsItsPayload
  intro s compat type size hhead
  have hcur : (s.advance 7).interp.cursor.toNat = s.interp.cursor.toNat + 7 := toNat_advance_cursor hhead
  have hexec : exec (.dblkFull compat type size) s = .next ((s.advance 7).skipBytes size.toNat) := rfl
  constructor
  · intro hin
    rw [hexec, skipBytes_of_le (by rwa [hcur]), State.advance, State.setCursor, BitVec.ofNat_toNat,
      BitVec.setWidth_eq]
    rfl
  · intro hout
    rw [hexec, skipBytes_of_lt (by rwa [hcur]) (by rwa [hcur])]
    rfl

/-! ### Register writes -/

/-- A register write passes three bytes, performs the driver write of its port and toggles the indicator
(42_chip_write.md rule R90). -/
theorem exec_of_wrPort {i : Instr} {port : WrPort} (h : i.wrPort = some port) :
    ∃ reg val, ∀ s, exec i s = .next ((s.advance 3).portWrite port reg val).toggleActivity := by
  cases i
  case wrFma2op | wrFmaOpm | wrFma1op | wrFmb0 | wrFmb1 | wrPsg => cases h; exact ⟨_, _, fun _ => rfl⟩
  all_goals cases h

/-- Two phases and the indicator's toggle are the effect of a register write, and nothing else. -/
theorem writeEffect_twoPhase (s : State) (target : Target) (sel : SelPair) (reg val : Byte) :
    s.writeEffect ((s.advance 3).twoPhase target sel reg val).toggleActivity target sel reg val := by
  have htrace : ((s.advance 3).twoPhase target sel reg val).toggleActivity.traces.bus =
      s.traces.bus ++ [⟨target, sel.reg, reg⟩, ⟨target, sel.data, val⟩] := State.twoPhase_traces_bus ..
  refine ⟨htrace, rfl, rfl, rfl, rfl, ?_, fun u hu => ?_, rfl, rfl, rfl, fun _ => rfl, rfl, rfl, rfl⟩
  · simp [Strobes.get_set]
  · simp [Strobes.get_set, hu]

/-- Settles O8: each of the three is FM-A's driver write. -/
theorem fmaWriteIsTwoTransactions : Obligations.FmaWriteIsTwoTransactions := by
  unfold Obligations.FmaWriteIsTwoTransactions
  rintro s reg val i (rfl | rfl | rfl) <;> exact ⟨_, rfl, writeEffect_twoPhase s .fma _ reg val⟩

/-- Settles O9: each is FM-B's driver write at the selectors of its own port. -/
theorem fmbWriteUsesTheOpcodesPort : Obligations.FmbWriteUsesTheOpcodesPort := by
  unfold Obligations.FmbWriteUsesTheOpcodesPort
  intro s reg val
  exact ⟨⟨_, rfl, writeEffect_twoPhase s .fmb _ reg val⟩, ⟨_, rfl, writeEffect_twoPhase s .fmb _ reg val⟩⟩

/-- Settles O10: the PSG's driver write, routed by bit 7 of the register byte. -/
theorem psgWriteGoesToOneChip : Obligations.PsgWriteGoesToOneChip := by
  unfold Obligations.PsgWriteGoesToOneChip
  intro s reg val
  rw [← psgIndex_eq_ite]
  exact ⟨_, rfl, writeEffect_twoPhase s (psgTarget reg) s.launch.params.sel.psg _ val⟩

/-- A command that names no driver port leaves the bus, its lines and its traces alone. -/
theorem exec_bus_of_wrPort_none {i : Instr} {s t : State} (hi : i.wrPort = none) (h : exec i s = .next t) :
    t.traces.bus = s.traces.bus ∧ t.traces.pins = s.traces.pins ∧ t.bus = s.bus := by
  rcases exec_cases h with ⟨_, rfl⟩ | ⟨_, _, rfl⟩ | ⟨_, _, _, _, _, _, hport, -, -⟩ | ⟨_, _, rfl⟩ | ⟨_, rfl⟩
  case inr.inr.inl => rw [hi] at hport; cases hport
  all_goals exact ⟨rfl, rfl, rfl⟩

/-- Settles O17: a command either has a port and is its driver write, or leaves the bus alone. -/
theorem onlyWriteCommandsDriveTheBus : Obligations.OnlyWriteCommandsDriveTheBus := by
  unfold Obligations.OnlyWriteCommandsDriveTheBus
  intro i s t h
  cases hi : i.wrPort with
  | none => exact exec_bus_of_wrPort_none hi h
  | some port =>
    obtain ⟨reg, val, hexec⟩ := exec_of_wrPort hi
    rw [hexec s, State.portWrite_eq_twoPhase] at h
    cases h
    exact ⟨_, _, State.twoPhase_traces_bus .., rfl, portTarget_family reg port, rfl, rfl, rfl⟩

/-- Settles O42: the driver write appends the events of two transactions of one family. -/
theorem writeTimeIsTwoTransactions : Obligations.WriteTimeIsTwoTransactions := by
  unfold Obligations.WriteTimeIsTwoTransactions
  intro i port s t hi h
  obtain ⟨reg, val, hexec⟩ := exec_of_wrPort hi
  rw [hexec s, State.portWrite_eq_twoPhase] at h
  cases h
  rw [State.toggleActivity_traces, State.twoPhase_traces_pins, pinMicros_append, pinMicros_append,
    pinMicros_pins, pinMicros_pins, portTarget_family, State.advance_traces]
  omega

/-! ### What every command leaves alone -/

/-- Settles O16: each kind of command writes the cursor, the delay, the bus, the traces or the halt fields alone. -/
theorem noCommandWritesBootStateOrImage : Obligations.NoCommandWritesBootStateOrImage := by
  unfold Obligations.NoCommandWritesBootStateOrImage
  intro i s t h
  rcases exec_cases h with ⟨_, rfl⟩ | ⟨_, _, rfl⟩ | ⟨_, _, _, _, _, _, -, -, rfl⟩ | ⟨_, _, rfl⟩ | ⟨_, rfl⟩ <;>
    exact ⟨fun _ => rfl, rfl, rfl, rfl, rfl, rfl, rfl, rfl, rfl, rfl, rfl, rfl⟩

theorem skipBytes_delayCounter (s : State) (n : Nat) :
    (s.skipBytes n).interp.delayCounter = s.interp.delayCounter := by
  rcases skipBytes_or_overrun s n with e | ⟨a, e⟩ <;> rw [e] <;> rfl

/-- A command that is no wait leaves the delay counter alone (41_wait.md rule R84). -/
theorem exec_delayCounter_of_waitCount_none {i : Instr} {s t : State} (hi : i.waitCount = none)
    (h : exec i s = .next t) : t.interp.delayCounter = s.interp.delayCounter := by
  cases i
  case waitS | waitN | wait735 | wait882 => cases hi
  case dblkFull => cases h; exact skipBytes_delayCounter ..
  all_goals cases h; rfl

/-- Settles O18: a command either is a wait and writes its count, or leaves the counter alone. -/
theorem onlyWaitCommandsWriteTheDelay : Obligations.OnlyWaitCommandsWriteTheDelay := by
  unfold Obligations.OnlyWaitCommandsWriteTheDelay
  intro i s t h
  cases hi : i.waitCount with
  | none => exact exec_delayCounter_of_waitCount_none hi h
  | some d =>
    rw [exec_of_waitCount hi] at h
    cases h
    rfl

/-- Settles O19: only the payload skip can halt, and a skip that stays RUNNING writes the cursor alone. -/
theorem onlyAnOverrunHaltsACommand : Obligations.OnlyAnOverrunHaltsACommand := by
  unfold Obligations.OnlyAnOverrunHaltsACommand
  intro i s t h hsched
  cases i
  case dblkFull c y size =>
    have ht : (s.advance 7).skipBytes size.toNat = t := by cases h; rfl
    rcases skipBytes_or_overrun (s.advance 7) size.toNat with e | ⟨a, e⟩ <;> rw [e] at ht <;> subst ht
    · exact absurd rfl hsched
    · exact ⟨⟨c, y, size, rfl⟩, rfl, rfl, rfl⟩
  all_goals cases h; exact absurd rfl hsched

end Sys2Proof.Machine
end

section
/-! PROOFS. The machine's one fetch and closed-form skip against the byte-by-byte pseudocode
(40_interpreter_core.md rules R71, R75; 43_stream_control.md rule R117): decoding and `NextByte()` fail at the same
offset, and each row of the opcode map runs its class's rule. -/
namespace Sys2Proof.Machine

/-! ### The payload skip -/

theorem State.advance_zero (s : State) : s.advance 0 = s := by
  simp [State.advance, State.setCursor]

theorem refSkip_succ (n : Nat) (s : State) : refSkip (n + 1) s = nextByte s >>= fun r => refSkip n r.2 := by
  rw [refSkip]
  cases nextByte s <;> rfl

theorem skipBytes_zero (s : State) : s.skipBytes 0 = s :=
  (if_pos (.inl rfl)).trans s.advance_zero

/-- After a byte that is read, the skip goes on from the next offset. -/
theorem skipBytes_succ_of_fetch? {s : State} {b : Byte} (n : Nat) (h : s.fetch? s.interp.cursor = some b) :
    s.skipBytes (n + 1) = (s.advance 1).skipBytes n := by
  have hlt : s.interp.cursor.toNat < s.launch.streamLength.toNat := fetch?_isSome_iff.mp (by rw [h]; rfl)
  have hcur : (s.advance 1).interp.cursor.toNat = s.interp.cursor.toNat + 1 := toNat_advance_cursor hlt
  by_cases hin : s.interp.cursor.toNat + (n + 1) ≤ s.launch.streamLength.toNat
  · rw [skipBytes_of_le hin, skipBytes_of_le (by rw [hcur, State.advance_launch]; omega), State.advance_advance,
      Nat.add_comm]
  · rw [skipBytes_of_lt hlt.le (Nat.lt_of_not_le hin),
      skipBytes_of_lt (by rwa [hcur]) (by rw [hcur, State.advance_launch]; omega)]
    rfl

/-- Where the first read fails, the skip halts at it. -/
theorem skipBytes_succ_of_fetch?_none {s : State} (n : Nat) (h : s.fetch? s.interp.cursor = none) :
    s.skipBytes (n + 1) = s.overrun s.interp.cursor := by
  have hge : ¬ s.interp.cursor.toNat < s.launch.streamLength.toNat := fun hlt => by
    rw [fetch?_some hlt] at h
    cases h
  rcases skipBytes_cases s (n + 1) with ⟨hn, -⟩ | ⟨hlt, -⟩ | ⟨-, -, e⟩
  · omega
  · exact absurd hlt hge
  · exact e

/-- The reads all succeed and pass their bytes, or halt where the closed form does. -/
theorem refSkip_cases (n : Nat) (s : State) :
    (refSkip n s = .ok (s.advance n) ∧ s.skipBytes n = s.advance n) ∨
    ∃ a, refSkip n s = .error (s.overrun a) ∧ s.skipBytes n = s.overrun a := by
  induction n generalizing s with
  | zero => exact .inl ⟨congrArg _ s.advance_zero.symm, (skipBytes_zero s).trans s.advance_zero.symm⟩
  | succ n ih =>
    rw [refSkip_succ]
    cases hf : s.fetch? s.interp.cursor with
    | none =>
      rw [nextByte_error hf, skipBytes_succ_of_fetch?_none n hf]
      exact .inr ⟨_, rfl, rfl⟩
    | some b =>
      rw [nextByte_ok hf, skipBytes_succ_of_fetch? n hf]
      have hadv : (s.advance 1).advance n = s.advance (n + 1) := by rw [State.advance_advance, Nat.add_comm]
      rcases ih (s.advance 1) with ⟨hok, hskip⟩ | ⟨a, herr, hskip⟩
      · rw [hadv] at hok hskip
        exact .inl ⟨hok, hskip⟩
      · exact .inr ⟨a, herr, hskip⟩

/-- Settles O33: both pass the bytes, or both halt at the same offset. -/
theorem payloadSkipIsThatManyByteReads : Obligations.PayloadSkipIsThatManyByteReads := by
  unfold Obligations.PayloadSkipIsThatManyByteReads
  intro s n
  rcases refSkip_cases n s with ⟨hok, hskip⟩ | ⟨a, herr, hskip⟩
  · rw [hok, hskip]
  · rw [herr, hskip]

/-! ### The window and single reads -/

/-- The bytes at the cursor, up to `n` of them. -/
def State.ahead (s : State) (n : Nat) : List Byte := s.readable s.interp.cursor n

theorem State.window_eq_ahead (s : State) : s.window = s.ahead 7 := rfl

theorem State.ahead_succ_of_fetch? {s : State} {b : Byte} (n : Nat) (h : s.fetch? s.interp.cursor = some b) :
    s.ahead (n + 1) = b :: (s.advance 1).ahead n := by
  rw [State.ahead, readable_succ_some n h]
  exact congrArg _ (readable_congr (s.advance_launch 1) _ n).symm

theorem State.ahead_succ_of_fetch?_none {s : State} (n : Nat) (h : s.fetch? s.interp.cursor = none) :
    s.ahead (n + 1) = [] :=
  readable_succ_none n h

theorem window_length (s : State) :
    s.window.length = min 7 (s.launch.streamLength.toNat - s.interp.cursor.toNat) :=
  readable_length s s.interp.cursor 7

/-- The read that follows `j` successful ones succeeds exactly where the window goes on. -/
theorem fetch?_advance_isSome_iff {s : State} {j : Nat} (hj : j ≤ s.window.length) (h7 : j < 7) :
    ((s.advance j).fetch? (s.advance j).interp.cursor).isSome = true ↔ j < s.window.length := by
  have := s.launch.streamLength.isLt
  have := s.interp.cursor.isLt
  rw [window_length] at hj
  rw [fetch?_isSome_iff, window_length, State.advance_launch, State.advance_interp_cursor, BitVec.toNat_add,
    BitVec.toNat_ofNat]
  omega

/-! ### One fetch against one read after another -/

/-- What the machine does with a decoded window (40_interpreter_core.md rules R73, R76). -/
def State.runDecoded (s : State) : Decoded → Result
  | .ok i _ => afterCommand (exec i s)
  | .error _ => .next (s.overrun (s.interp.cursor + BitVec.ofNat 32 s.window.length))

/-- What the pseudocode does after a command rule: the end check, unless a read halted (40_interpreter_core.md rules
R71, R76). -/
def ruleOutcome : Except State State → State
  | .ok t => t.endCheck
  | .error h => h

theorem interpStep_eq_runDecoded {s : State} (hd : s.interp.delayCounter = 0) :
    interpStep s = s.runDecoded (decode s.launch.params s.window) := by
  rcases fetchInstr_cases s with ⟨i, rest, hdec, hf⟩ | ⟨e, hdec, hf⟩
  · rw [interpStep_command hd hf, hdec, State.runDecoded]
  · rw [interpStep_overrun hd hf, hdec, State.runDecoded]

theorem refStep_eq_ruleOutcome {s : State} (hd : s.interp.delayCounter = 0) :
    refStep s = ruleOutcome (nextByte s >>= fun r => refDispatch r.1 r.2) := by
  rw [refStep, hd, if_neg (by decide), refCommand]
  cases nextByte s with
  | error h => rfl
  | ok r =>
    show (match (refDispatch r.1 r.2 >>= fun t => Except.ok t.endCheck) with
      | .ok t => t
      | .error h => h) = ruleOutcome (refDispatch r.1 r.2)
    cases refDispatch r.1 r.2 <;> rfl

theorem refStep_of_delay {s : State} (hd : 0 < s.interp.delayCounter) :
    refStep s = s.setDelay (s.interp.delayCounter - 1) :=
  if_pos hd

/-- A command that completes, against a rule that ends in the same state. -/
theorem runDecoded_ok {s t : State} {i : Instr} {rest : List Byte} (hx : exec i s = .next t)
    (ht : t.sched.phase = .running) : s.runDecoded (.ok i rest) = .next (ruleOutcome (.ok t)) := by
  rw [State.runDecoded, hx, afterCommand_running ht, ruleOutcome]

section
variable {s : State} {j n : Nat} (hj : j ≤ s.window.length) (hn : j + n = 6)
include hj hn

/-- One more byte decoded against one more byte read: they fail together, at the same offset. -/
theorem runDecoded_takeByte {e : DecodeError} {k : Byte → List Byte → Decoded}
    {f : Byte × State → Except State State}
    (h : ∀ b, j + 1 ≤ s.window.length →
      s.runDecoded (k b ((s.advance (j + 1)).ahead n)) = .next (ruleOutcome (f (b, s.advance (j + 1))))) :
    s.runDecoded (takeByte e k ((s.advance j).ahead (n + 1))) =
      .next (ruleOutcome (nextByte (s.advance j) >>= f)) := by
  have hiff := fetch?_advance_isSome_iff hj (by omega)
  cases hf : (s.advance j).fetch? (s.advance j).interp.cursor with
  | none =>
    have hlen : s.window.length = j := by
      rw [hf] at hiff
      simp only [Option.isSome_none, Bool.false_eq_true, false_iff] at hiff
      omega
    rw [State.ahead_succ_of_fetch?_none n hf, nextByte_error hf, takeByte, State.runDecoded, hlen]
    rfl
  | some b =>
    have hlen : j + 1 ≤ s.window.length := hiff.mp (by rw [hf]; rfl)
    rw [State.ahead_succ_of_fetch? n hf, nextByte_ok hf, takeByte, State.advance_advance, h b hlen,
      ← State.advance_advance]
    rfl

theorem runDecoded_withOne {k : Byte → Instr} {f : Byte × State → Except State State}
    (h : ∀ b rest, s.runDecoded (.ok (k b) rest) = .next (ruleOutcome (f (b, s.advance (j + 1))))) :
    s.runDecoded (withOne k ((s.advance j).ahead (n + 1))) =
      .next (ruleOutcome (nextByte (s.advance j) >>= f)) := by
  rw [withOne_eq_takeByte]
  exact runDecoded_takeByte hj hn fun b _ => h b _

end

section
variable {s : State} {j n : Nat} (hj : j ≤ s.window.length)
include hj

theorem runDecoded_withTwo (hn : j + n = 5) {k : Byte → Byte → Instr} {f : Byte → Byte × State → Except State State}
    (h : ∀ b1 b2 rest, s.runDecoded (.ok (k b1 b2) rest) = .next (ruleOutcome (f b1 (b2, s.advance (j + 2))))) :
    s.runDecoded (withTwo k ((s.advance j).ahead (n + 2))) =
      .next (ruleOutcome (nextByte (s.advance j) >>= fun r1 => nextByte r1.2 >>= f r1.1)) := by
  rw [withTwo_eq_takeByte]
  exact runDecoded_takeByte hj (by omega) fun b1 h1 => runDecoded_withOne h1 (by omega) (h b1)

theorem runDecoded_withThree (hn : j + n = 4) {k : Byte → Byte → Byte → Instr}
    {f : Byte → Byte → Byte × State → Except State State}
    (h : ∀ b1 b2 b3 rest,
      s.runDecoded (.ok (k b1 b2 b3) rest) = .next (ruleOutcome (f b1 b2 (b3, s.advance (j + 3))))) :
    s.runDecoded (withThree k ((s.advance j).ahead (n + 3))) =
      .next (ruleOutcome (nextByte (s.advance j) >>= fun r1 => nextByte r1.2 >>= fun r2 =>
        nextByte r2.2 >>= f r1.1 r2.1)) := by
  rw [withThree_eq_takeByte]
  exact runDecoded_takeByte hj (by omega) fun b1 h1 => runDecoded_withTwo h1 (by omega) (h b1)

end

/-! ### Each row against its class's rule -/

theorem refLoop_eq (s : State) :
    refLoop s = s.setCursor (if s.interp.loopDefined = true then s.interp.loopOffset else s.interp.startOffset) :=
  (apply_ite s.setCursor _ _ _).symm

/-- LOOP jumps from wherever its opcode byte left the cursor (43_stream_control.md rule R119). -/
theorem exec_loop_eq_refLoop (s : State) : exec .loop s = .next (refLoop (s.advance 1)) := by
  rw [exec_loop, refLoop_eq]
  rfl

section
variable {s : State} (hr : s.sched.phase = .running) (hw : 1 ≤ s.window.length)
include hr

/-- A payload skip ends the command in a state to check for the end, or in the halt (43_stream_control.md rule
R117). -/
theorem afterCommand_skipBytes (n : Nat) :
    afterCommand (.next (s.skipBytes n)) = .next (ruleOutcome (refSkip n s)) := by
  rcases refSkip_cases n s with ⟨hok, hskip⟩ | ⟨a, herr, hskip⟩
  · rw [hskip, hok, afterCommand_running (t := s.advance n) hr, ruleOutcome]
  · rw [hskip, herr, afterCommand_halted (by rw [State.overrun_sched_phase]; decide), ruleOutcome]

include hw

theorem runDecoded_waitN : s.runDecoded (withTwo (fun lo hi => .waitN (le16 lo hi)) ((s.advance 1).ahead 6)) =
    .next (ruleOutcome (refWaitN (s.advance 1))) :=
  runDecoded_withTwo (f := fun lo r => .ok (r.2.setDelay (le16 lo r.1))) hw (n := 4) rfl
    fun _ _ _ => runDecoded_ok rfl hr

/-- A register write of one port (42_chip_write.md rule R90). -/
theorem runDecoded_write {k : Byte → Byte → Instr} {port : WrPort}
    (hk : ∀ reg val, exec (k reg val) s = .next ((s.advance 3).portWrite port reg val).toggleActivity) :
    s.runDecoded (withTwo k ((s.advance 1).ahead 6)) = .next (ruleOutcome (refWr port (s.advance 1))) :=
  runDecoded_withTwo (f := fun reg r => .ok (r.2.portWrite port reg r.1).toggleActivity) hw (n := 4) rfl
    fun reg val _ => runDecoded_ok (hk reg val) (by rw [State.portWrite_eq_twoPhase]; exact hr)

theorem runDecoded_skipOne {k : Byte → Instr} (hk : ∀ b, exec (k b) s = .next (s.advance 2)) :
    s.runDecoded (withOne k ((s.advance 1).ahead 6)) = .next (ruleOutcome (refSkip 1 (s.advance 1))) := by
  rw [refSkip_succ]
  exact runDecoded_withOne (f := fun r => refSkip 0 r.2) hw (n := 5) rfl fun b _ => runDecoded_ok (hk b) hr

theorem runDecoded_skipTwo {k : Byte → Byte → Instr} (hk : ∀ b1 b2, exec (k b1 b2) s = .next (s.advance 3)) :
    s.runDecoded (withTwo k ((s.advance 1).ahead 6)) = .next (ruleOutcome (refSkip 2 (s.advance 1))) := by
  simp only [refSkip_succ]
  exact runDecoded_withTwo (f := fun _ r => refSkip 0 r.2) hw (n := 4) rfl
    fun b1 b2 _ => runDecoded_ok (hk b1 b2) hr

theorem runDecoded_bseek :
    s.runDecoded (withThree .bseek ((s.advance 1).ahead 6)) = .next (ruleOutcome (refSkip 3 (s.advance 1))) := by
  simp only [refSkip_succ]
  exact runDecoded_withThree (f := fun _ _ r => refSkip 0 r.2) hw (n := 3) rfl
    fun _ _ _ _ => runDecoded_ok rfl hr

/-- A SKIP_FULL data block: six operand reads, then the payload (43_stream_control.md rule R117). -/
theorem runDecoded_blockHead :
    s.runDecoded (withBlockHead ((s.advance 1).ahead 6)) = .next (ruleOutcome (refDataBlk (s.advance 1))) := by
  rw [withBlockHead_eq_takeByte]
  refine runDecoded_takeByte hw (n := 5) rfl fun c h2 => runDecoded_takeByte h2 (n := 4) rfl fun y h3 =>
    runDecoded_takeByte h3 (n := 3) rfl fun b0 h4 => ?_
  exact runDecoded_withThree (f := fun b1 b2 r => refSkip (le32 b0 b1 b2 r.1).toNat r.2) h4 (n := 0) rfl
    fun b1 b2 b3 _ => afterCommand_skipBytes (s := s.advance 7) hr (le32 b0 b1 b2 b3).toNat

/-- Every row of the map runs the rule of its class (30_encoding.md rule R62, 40_interpreter_core.md rule R71). -/
theorem runDecoded_decodeRow {op : Byte} {r : MapRow} (hrow : s.launch.params.rowOf op = some r) :
    s.runDecoded (decodeRow s.launch.params op ((s.advance 1).ahead 6) r) =
      .next (ruleOutcome (refDispatch op (s.advance 1))) := by
  have hclass : (s.advance 1).launch.params.classOf op = s.launch.params.rowClass r := by
    simp only [State.advance_launch, Params.classOf, hrow]
  rw [refDispatch, hclass]
  cases r
  case waitS | wait735 | wait882 => exact runDecoded_ok rfl hr
  case loop => exact runDecoded_ok (exec_loop_eq_refLoop s) (by rw [refLoop_eq]; exact hr)
  case waitN => exact runDecoded_waitN hr hw
  case ggst | sn => exact runDecoded_skipOne hr hw fun _ => rfl
  case sf0 | sf1 => exact runDecoded_skipTwo hr hw fun _ _ => rfl
  case bankSeek => exact runDecoded_bseek hr hw
  case dataBlk =>
    show _ = Host.Outcome.next (ruleOutcome (if s.launch.params.dataBlockMode = .noop then .ok (s.advance 1)
      else refDataBlk (s.advance 1)))
    rw [decodeRow]
    split
    · exact runDecoded_ok rfl hr
    · exact runDecoded_blockHead hr hw
  case opm | fm2op | fm1op | fmb0 | fmb1 | psg =>
    -- One row, two classes: the driver's write where it is wired, else a skip of two bytes.
    simp only [decodeRow, Params.rowClass]
    split
    · exact runDecoded_write hr hw fun _ _ => rfl
    · exact runDecoded_skipTwo hr hw fun _ _ => rfl

/-- Every opcode byte runs the rule of its class (40_interpreter_core.md rule R71). -/
theorem runDecoded_opcode (op : Byte) :
    s.runDecoded (decode s.launch.params (op :: (s.advance 1).ahead 6)) =
      .next (ruleOutcome (refDispatch op (s.advance 1))) := by
  cases hrow : s.launch.params.rowOf op with
  | some r => rw [decode_cons_some _ hrow]; exact runDecoded_decodeRow hr hw hrow
  | none =>
    have hclass : (s.advance 1).launch.params.classOf op = .unrec := by
      simp only [State.advance_launch, Params.classOf, hrow]
    have hoff : (s.advance 1).interp.cursor - 1 = s.interp.cursor := BitVec.add_sub_cancel s.interp.cursor 1#32
    rw [decode_cons_none _ hrow, refDispatch, hclass]
    simp only [hoff]
    exact runDecoded_ok rfl hr

end

theorem decode_eq_takeByte (p : Params) : decode p = takeByte .noOpcode fun op rest => decode p (op :: rest) := by
  funext bs
  cases bs <;> rfl

/-- Settles O32: a delay tick is one test; otherwise the opcode and then each operand are decoded from the window
where the pseudocode reads them, and the row's command is the class's rule. -/
theorem theMachineStepIsThePseudocode : Obligations.TheMachineStepIsThePseudocode := by
  unfold Obligations.TheMachineStepIsThePseudocode
  intro s hr
  by_cases hd : 0 < s.interp.delayCounter
  · rw [interpStep_delay hd, refStep_of_delay hd]
  · have hd0 : s.interp.delayCounter = 0 := by bv_omega
    rw [interpStep_eq_runDecoded hd0, refStep_eq_ruleOutcome hd0, decode_eq_takeByte, State.window_eq_ahead]
    have h := runDecoded_takeByte (e := .noOpcode) (k := fun op rest => decode s.launch.params (op :: rest))
      (f := fun r => refDispatch r.1 r.2) (Nat.zero_le s.window.length) (Nat.zero_add 6)
      fun op hw => runDecoded_opcode hr hw op
    rwa [s.advance_zero] at h

end Sys2Proof.Machine
end

section
/-! PROOFS. A fetching step by class (40_interpreter_core.md sections 1 and 2): a command with every operand in the
image decodes, one with an operand outside it halts at the image's end, and the statements on long waits, loops,
bank seeks, unrecognized opcodes and overruns. -/
namespace Sys2Proof.Machine

/-! ### Operands in the image, and outside it -/

theorem operandBytes_le (p : Params) (c : OpClass) : p.operandBytes c ≤ 6 := by
  cases c
  case dataBlk => rw [Params.operandBytes]; split <;> decide
  all_goals simp [Params.operandBytes]

section
variable {s : State} {op : Byte} (hop : s.fetch? s.interp.cursor = some op)
include hop

theorem cursor_lt_of_fetch? : s.interp.cursor.toNat < s.launch.streamLength.toNat :=
  fetch?_isSome_iff.mp (by rw [hop]; rfl)

/-- The operand bytes of the window are those of the image after the opcode. -/
theorem operands_length : (s.readable (s.interp.cursor + 1) 6).length =
    min 6 (s.launch.streamLength.toNat - (s.interp.cursor.toNat + 1)) := by
  rw [readable_length, toNat_add_one_of_lt (cursor_lt_of_fetch? hop)]

/-- With every operand in the image the opcode decodes to a command (30_encoding.md rule R67). -/
theorem decode_ok_of_operands
    (h : s.interp.cursor.toNat + s.launch.params.operandBytes (s.launch.params.classOf op) <
      s.launch.streamLength.toNat) : ∃ i rest, decode s.launch.params s.window = .ok i rest := by
  have htakes := takes_decode s.launch.params op (s.readable (s.interp.cursor + 1) 6)
  have hle := operandBytes_le s.launch.params (s.launch.params.classOf op)
  rw [← window_of_fetch? hop] at htakes
  cases hdec : decode s.launch.params s.window with
  | ok i rest => exact ⟨i, rest, rfl⟩
  | error e =>
    rw [hdec] at htakes
    have hshort := htakes.2
    rw [operands_length hop] at hshort
    omega

theorem decode_error_of_operands
    (h : s.launch.streamLength.toNat ≤
      s.interp.cursor.toNat + s.launch.params.operandBytes (s.launch.params.classOf op)) :
    ∃ e, decode s.launch.params s.window = .error e := by
  have htakes := takes_decode s.launch.params op (s.readable (s.interp.cursor + 1) 6)
  have hlt := cursor_lt_of_fetch? hop
  rw [← window_of_fetch? hop] at htakes
  cases hdec : decode s.launch.params s.window with
  | error e => exact ⟨e, rfl⟩
  | ok i rest =>
    rw [hdec] at htakes
    have hlong := htakes.1
    rw [operands_length hop] at hlong
    omega

end

/-! ### Halts at a failing read -/

/-- A window that decodes to no command halts the step at the first byte it lacks (40_interpreter_core.md rule
R76). -/
theorem step_of_decode_error {s : State} {e : DecodeError} (hs : s.fetches)
    (h : decode s.launch.params s.window = .error e) :
    step s =
      .next (s.enterHandler.overrun (s.interp.cursor + BitVec.ofNat 32 s.window.length)).exitHandler := by
  obtain ⟨ht, hd⟩ := hs
  have hw : s.enterHandler.window = s.window := window_congr (State.enterHandler_launch s) rfl
  rw [step_of_takesTick ht, interpStep_eq_runDecoded (s := s.enterHandler) hd, hw, State.enterHandler_launch, h,
    State.runDecoded, hw, leaveHandler, State.enterHandler_interp]

/-- An operand outside the image halts the step at the image's end. -/
theorem step_of_missing_operand {s : State} {op : Byte} (hs : s.fetches)
    (hop : s.fetch? s.interp.cursor = some op)
    (h : s.launch.streamLength.toNat ≤
      s.interp.cursor.toNat + s.launch.params.operandBytes (s.launch.params.classOf op)) :
    step s = .next (s.enterHandler.overrun s.launch.streamLength).exitHandler := by
  obtain ⟨e, hdec⟩ := decode_error_of_operands hop h
  have hlt := cursor_lt_of_fetch? hop
  have hle := operandBytes_le s.launch.params (s.launch.params.classOf op)
  have hend : s.interp.cursor + BitVec.ofNat 32 s.window.length = s.launch.streamLength := by
    apply BitVec.eq_of_toNat_eq
    have := s.launch.streamLength.isLt
    rw [window_length, BitVec.toNat_add, BitVec.toNat_ofNat]
    omega
  rw [step_of_decode_error hs hdec, hend]

/-- A cursor outside the image halts the step where it stands. -/
theorem step_of_missing_opcode {s : State} (hs : s.fetches) (h : s.fetch? s.interp.cursor = none) :
    step s = .next (s.enterHandler.overrun s.interp.cursor).exitHandler := by
  have hw : s.window = [] := readable_succ_none 6 h
  have hdec : decode s.launch.params s.window = .error .noOpcode := by rw [hw, decode]
  have hstay : s.interp.cursor + BitVec.ofNat 32 s.window.length = s.interp.cursor := by
    rw [hw]
    exact BitVec.add_zero s.interp.cursor
  rw [step_of_decode_error hs hdec, hstay]

/-- Settles O31: either halt writes the cursor, the halt's fields and its record alone. -/
theorem anOverrunHaltsBeforeAnyEffect : Obligations.AnOverrunHaltsBeforeAnyEffect := by
  unfold Obligations.AnOverrunHaltsBeforeAnyEffect
  intro s hs
  constructor
  · intro op hop hlen
    exact ⟨_, step_of_missing_operand hs hop hlen, rfl, rfl, rfl, rfl, rfl, rfl⟩
  · intro hop
    exact ⟨_, step_of_missing_opcode hs hop, rfl, rfl, rfl, rfl, rfl, rfl⟩

/-! ### A command that completes -/

/-- Settles O20: the step equation of a decoded command. -/
theorem stepRunsTheDecodedCommand : Obligations.StepRunsTheDecodedCommand := by
  unfold Obligations.StepRunsTheDecodedCommand
  intro s i rest hs hdec
  exact step_of_decode hs hdec

/-- Settles O22: the run-down of a delay. -/
theorem delayPassesInItsCountOfSteps : Obligations.DelayPassesInItsCountOfSteps := by
  unfold Obligations.DelayPassesInItsCountOfSteps
  intro s k hr ha hb hk
  obtain ⟨t, hrun, hcount, hcur, hq⟩ := run_of_delay hr ha hb hk
  obtain ⟨hrt, hat, hbt⟩ := State.ready_of_quiet hq hr ha
  obtain ⟨-, hbus, htraces, -⟩ := hq
  exact ⟨t, hrun, hcount, hcur, hbus, htraces, hrt, hat, hbt⟩

/-- A fetching step at a command that writes the cursor alone: the end check, and nothing else. -/
theorem step_of_setCursor {s : State} {i : Instr} {rest : List Byte} {c : Word} (hs : s.fetches)
    (hdec : decode s.launch.params s.window = .ok i rest)
    (hx : exec i s.enterHandler = .next (s.enterHandler.setCursor c)) :
    ∃ t, step s = .next t ∧ t.interp.cursor = s.interp.wrapped c ∧ t.interp.delayCounter = 0 ∧ s.quiet t :=
  ⟨_, step_of_exec_running hs hdec hx hs.1.1, rfl, hs.2, by simp [State.quiet, State.sameButPlayback]⟩

/-- Settles O24: with both operands read the step is a long wait of their little-endian count, else the halt at a
missing operand. -/
theorem longWaitReadsALittleEndianCount : Obligations.LongWaitReadsALittleEndianCount := by
  unfold Obligations.LongWaitReadsALittleEndianCount
  intro s op hs hop hclass
  constructor
  · intro lo hi hlo hhi
    have hhi' : s.fetch? (s.interp.cursor + 1 + 1) = some hi := by rwa [BitVec.add_assoc]
    have hdec := decode_window_of_soleRow (r := .waitN) hop (by rw [hclass]; rfl)
    rw [readable_succ_some 5 hlo, readable_succ_some 4 hhi'] at hdec
    have hcount : (le16 lo hi).toNat = lo.toNat + 256 * hi.toNat := le16_toNat lo hi
    rw [← hcount]
    constructor
    · obtain ⟨t, hstep, hdelay, hcur, hq⟩ := step_of_wait hs hdec rfl
      exact ⟨t, hstep, congrArg BitVec.toNat hdelay, hcur, hq⟩
    · intro ha k hk
      obtain ⟨u, hrun, hleft, hcur, -, hbus, htraces, -⟩ := run_of_wait hs ha hdec rfl hk
      exact ⟨u, hrun, hleft, hcur, htraces, hbus⟩
  · intro hlen
    exact ⟨_, step_of_missing_operand hs hop (by rw [hclass]; exact hlen), rfl, rfl, hs.2, rfl, rfl⟩

/-- Settles O26: the jump and its end check; a target outside the image is the next step's failing read. -/
theorem loopOpcodeJumpsThenWraps : Obligations.LoopOpcodeJumpsThenWraps := by
  unfold Obligations.LoopOpcodeJumpsThenWraps
  intro s op hs ha hop hclass
  have hdec := decode_window_of_soleRow (r := .loop) hop (by rw [hclass]; rfl)
  obtain ⟨t, hstep, hcur, hdelay, hq⟩ := step_of_setCursor hs hdec (exec_loop s.enterHandler)
  refine ⟨t, hstep, hq, hdelay, fun hdef => ?_, fun hdef => ?_, fun hout => ?_⟩
  · rw [hcur, State.enterHandler_interp, if_pos hdef]
  · rw [hcur, State.enterHandler_interp, hdef, if_neg Bool.false_ne_true, Interp.wrapped, ite_self]
  · obtain ⟨hrt, hat, hbt⟩ := State.ready_of_quiet hq hs.1.1 ha
    obtain ⟨⟨hlaunch, -⟩, -, htraces, -⟩ := hq
    have hnone : t.fetch? t.interp.cursor = none := fetch?_none (by rw [hlaunch]; exact hout)
    have hfetch : t.fetches := ⟨⟨hrt, by simp [hat], hbt⟩, hdelay⟩
    exact ⟨_, step_of_missing_opcode hfetch hnone, rfl, rfl, by rw [← htraces]; rfl⟩

/-- Settles O27: with three operands read the step passes four bytes, else the halt at a missing operand. -/
theorem bankSeekDiscardsThreeBytes : Obligations.BankSeekDiscardsThreeBytes := by
  unfold Obligations.BankSeekDiscardsThreeBytes
  intro s op hs hop hclass
  constructor
  · intro hlen
    obtain ⟨i, rest, hdec⟩ := decode_ok_of_operands hop (by rw [hclass]; exact hlen)
    have hrow := decode_window_of_soleRow (r := .bankSeek) hop (by rw [hclass]; rfl)
    obtain ⟨b0, b1, b2, rfl⟩ := withThree_eq_ok (hrow.symm.trans hdec)
    exact step_of_setCursor hs hdec rfl
  · intro hlen
    exact ⟨_, step_of_missing_operand hs hop (by rw [hclass]; exact hlen), rfl, rfl, rfl⟩

/-- A byte of class UNREC is one that no row claims (30_encoding.md rule R65). -/
theorem rowOf_of_classOf_unrec {p : Params} {op : Byte} (h : p.classOf op = .unrec) : p.rowOf op = none := by
  unfold Params.classOf at h
  cases hrow : p.rowOf op with
  | none => rfl
  | some r =>
    rw [hrow] at h
    cases r
    case opm | fm2op | fm1op | fmb0 | fmb1 | psg =>
      simp only [Params.rowClass] at h
      split at h <;> cases h
    all_goals cases h

/-- Settles O28: no row claims the byte, so the step logs it and passes it. -/
theorem unrecognizedOpcodeDoesNotHalt : Obligations.UnrecognizedOpcodeDoesNotHalt := by
  unfold Obligations.UnrecognizedOpcodeDoesNotHalt
  intro s op hs hop hclass
  have hdec : decode s.launch.params s.window = .ok (.unrec op) (s.readable (s.interp.cursor + 1) 6) := by
    rw [window_of_fetch? hop, decode_cons_none _ (rowOf_of_classOf_unrec hclass)]
  exact ⟨_, step_of_exec_running hs hdec rfl hs.1.1, hs.1.1, rfl, rfl, rfl, hs.2, rfl, rfl, rfl⟩

end Sys2Proof.Machine
end

section
/-! PROOFS. The tick source and the handler around one interpreter step (60_exceptions.md rules R152, R155 to
R158). -/
namespace Sys2Proof.Machine

/-- A firing writes the pending bit alone (60_exceptions.md rules R155, R156). -/
theorem State.tickFires_of_pending {s : State} {b : Bool} (h : (s.sched.armed || s.sched.tickPending) = b) :
    s.tickFires = { s with sched := { s.sched with tickPending := b } } := by
  rw [State.tickFires, h]

theorem State.tickFires_eq_self {s : State} (h : (s.sched.armed || s.sched.tickPending) = s.sched.tickPending) :
    s.tickFires = s :=
  State.tickFires_of_pending h

/-- Settles O59: a firing sets the pending bit while armed and otherwise writes back what it held. -/
theorem ticksAreNotQueued : Obligations.TicksAreNotQueued := by
  unfold Obligations.TicksAreNotQueued
  intro s
  refine ⟨fun ha => ?_, fun ha => ?_, fun hp => ?_, ?_⟩
  · exact State.tickFires_eq_self (by rw [ha, Bool.false_or])
  · exact State.tickFires_of_pending (by rw [ha, Bool.true_or])
  · exact State.tickFires_eq_self (by rw [hp, Bool.or_true])
  · refine State.tickFires_eq_self ?_
    rw [State.tickFires_sched_armed, State.tickFires_sched_tickPending, ← Bool.or_assoc, Bool.or_self]

theorem step_of_halted {s : State} (h : s.sched.phase = .halted) : step s = .fault .halted := by
  simp only [step, machineStep, h]

/-- Settles O57: the step's phase test, and a firing that writes the pending bit alone. -/
theorem haltedIsFinal : Obligations.HaltedIsFinal := by
  unfold Obligations.HaltedIsFinal
  intro s h
  exact ⟨step_of_halted h, h, fun ha => State.tickFires_eq_self (by rw [ha, Bool.false_or])⟩

/-- A RUNNING machine whose handler may not start idles until the next firing (log entries 9 and 25). -/
theorem step_of_idle {s : State} (hr : s.sched.phase = .running) (h : s.tickFires.handlerReady = false) :
    step s = .next s.tickFires := by
  simp only [step, machineStep, hr, onTick, h, Bool.false_eq_true, if_false]

/-- Settles O60: a taken tick is the handler around one completed `step()`; with a handler busy, or with nothing
armed or pending, the handler may not start. -/
theorem theHandlerRunsOneStep : Obligations.TheHandlerRunsOneStep := by
  unfold Obligations.TheHandlerRunsOneStep
  intro s
  refine ⟨fun ht => ?_, fun hr hb => ?_, fun hr ha hp => ?_⟩
  · obtain ⟨t, hi⟩ := interpStep_next s.enterHandler
    refine ⟨t, hi, ?_⟩
    rw [step_of_takesTick ht, hi]
    rfl
  · exact step_of_idle hr (by simp [State.handlerReady, hb])
  · rw [step_of_idle hr (by simp [State.handlerReady, ha, hp])]
    exact congrArg _ (State.tickFires_eq_self (by rw [ha, Bool.false_or]))

end Sys2Proof.Machine
end

section
/-! PROOFS. What one interpreter step can do, said once (the effects that the invariants of the machine's steps are
proved from), and the tick schedule: the pending bit and the draw counter pass through a step unread
(40_interpreter_core.md rule R79). -/
namespace Sys2Proof.Machine

/-! ### What a step can do -/

/-- What `step()` makes of a state: the cursor and the delay moved; one driver write of a wired port too; a
recoverable record appended; or a halt at a failing read. -/
inductive StepEffect (s : State) : State → Prop
  | moves (c : Word) (d : Half) : StepEffect s ((s.setCursor c).setDelay d)
  | writes (c : Word) (target : Target) (sel : SelPair) (reg val : Byte)
      (wired : s.launch.params.profile.wired target.family = true) :
      StepEffect s ((s.setCursor c).twoPhase target sel reg val).toggleActivity
  | logs (c : Word) (info : DiagInfo) : StepEffect s ((s.setCursor c).emit .e5 info)
  | overruns (a : Word) : StepEffect s (s.overrun a)

/-- A well-formed register write is one of a wired port (30_encoding.md rule R62, 42_chip_write.md rule R110). -/
theorem wired_of_wf {p : Params} {i : Instr} {port : WrPort} (hi : i.wf p = true) (h : i.wrPort = some port) :
    p.profile.wired port.driver = true := by
  cases i
  case wrFma2op | wrFmaOpm | wrFma1op | wrFmb0 | wrFmb1 | wrPsg =>
    cases h
    simp only [Instr.wf, Params.fmaAt, Bool.and_eq_true] at hi
    simp [Profile.wired, WrPort.driver, hi]
  all_goals cases h

/-- A command of the window has one of the effects; the end check, where it follows, moves the cursor again. -/
theorem stepEffect_of_exec {s u : State} {i : Instr} {rest : List Byte}
    (hdec : decode s.launch.params s.window = .ok i rest) (h : exec i s = .next u) :
    StepEffect s u ∧ (u.sched.phase = .running → StepEffect s u.endCheck) := by
  rcases exec_cases h with ⟨c, rfl⟩ | ⟨c, d, rfl⟩ | ⟨c, port, target, sel, reg, val, hport, hfam, rfl⟩ |
    ⟨c, op, rfl⟩ | ⟨a, rfl⟩
  · exact ⟨.moves c s.interp.delayCounter,
      fun _ => .moves (s := s) (s.setCursor c).endCheck.interp.cursor s.interp.delayCounter⟩
  · exact ⟨.moves c d, fun _ => .moves _ d⟩
  · have hwired : s.launch.params.profile.wired target.family = true := by
      rw [hfam]
      exact wired_of_wf (decodedCommandsAreWellFormed _ _ _ _ hdec) hport
    exact ⟨.writes c target sel reg val hwired, fun _ => .writes _ target sel reg val hwired⟩
  · exact ⟨.logs c _, fun _ => .logs _ _⟩
  · exact ⟨.overruns a, fun hr => by cases hr⟩

theorem stepEffect_of_interpStep {s t : State} (h : interpStep s = .next t) : StepEffect s t := by
  rcases interpStep_cases h with ⟨-, rfl⟩ | ⟨-, a, rfl⟩ | ⟨-, i, rest, u, hdec, hx, rfl⟩
  · exact .moves s.interp.cursor _
  · exact .overruns a
  · obtain ⟨heff, hend⟩ := stepEffect_of_exec hdec hx
    split
    · exact hend ‹_›
    · exact heff

/-- A step is the boot sequence, one interpreter step's effect inside the handler, or an idle tick. -/
theorem stepEffect_of_step {s t : State} (h : step s = .next t) :
    (s.sched.phase = .boot ∧ t = boot s) ∨
    (s.takesTick ∧ ∃ u, StepEffect s.enterHandler u ∧ t = u.exitHandler) ∨
    (s.sched.phase = .running ∧ ¬ s.takesTick ∧ t = s.tickFires) := by
  rcases step_cases h with hboot | ⟨ht, u, hi, rfl⟩ | hidle
  · exact .inl hboot
  · exact .inr (.inl ⟨ht, u, stepEffect_of_interpStep hi, rfl⟩)
  · exact .inr (.inr hidle)

/-! ### The tick schedule passes through a step unread -/

/-- The state with another tick schedule: another pending bit and another draw counter. -/
def State.withTicks (s : State) (pending : Bool) (draws : Nat) : State :=
  { s with sched.tickPending := pending, draws := draws }

/-- The outcome with another tick schedule. -/
def withTicks (pending : Bool) (draws : Nat) : Result → Result
  | .next t => .next (t.withTicks pending draws)
  | .fault f => .fault f
  | .refused r => .refused r

theorem State.eq_withTicks {s t : State} (h : s.forgetTicks = t.forgetTicks) :
    t = s.withTicks t.sched.tickPending t.draws := by
  simp_all [State.forgetTicks, State.withTicks]

section
variable (s : State) (pending : Bool) (draws : Nat)

theorem skipBytes_withTicks (n : Nat) :
    (s.withTicks pending draws).skipBytes n = (s.skipBytes n).withTicks pending draws := by
  simp only [State.skipBytes, apply_ite (State.withTicks · pending draws)]
  rfl

theorem exec_withTicks (i : Instr) : exec i (s.withTicks pending draws) = withTicks pending draws (exec i s) := by
  cases i
  case dblkFull c y size => exact congrArg _ (skipBytes_withTicks (s.advance 7) pending draws size.toNat)
  all_goals rfl

theorem afterCommand_withTicks (r : Result) :
    afterCommand (withTicks pending draws r) = withTicks pending draws (afterCommand r) := by
  cases r with
  | next t =>
    rw [withTicks]
    by_cases ht : t.sched.phase = .running
    · rw [afterCommand_running ht, afterCommand_running (t := t.withTicks pending draws) ht]
      rfl
    · rw [afterCommand_halted ht, afterCommand_halted (t := t.withTicks pending draws) ht]
      rfl
  | fault f => rfl
  | refused r => rfl

theorem leaveHandler_withTicks (r : Result) :
    leaveHandler (withTicks pending draws r) = withTicks pending draws (leaveHandler r) := by
  cases r <;> rfl

/-- No part of `step()` reads the pending bit or the draw counter. -/
theorem interpStep_withTicks :
    interpStep (s.withTicks pending draws) = withTicks pending draws (interpStep s) := by
  by_cases hd : 0 < s.interp.delayCounter
  · rw [interpStep_delay hd, interpStep_delay (s := s.withTicks pending draws) hd]
    rfl
  · have hd0 : s.interp.delayCounter = 0 := by bv_omega
    have hw : (s.withTicks pending draws).window = s.window := window_congr rfl rfl
    have hp : (s.withTicks pending draws).launch.params = s.launch.params := rfl
    rw [interpStep_eq_runDecoded hd0, interpStep_eq_runDecoded (s := s.withTicks pending draws) hd0, hw, hp]
    cases decode s.launch.params s.window with
    | ok i rest => rw [State.runDecoded, State.runDecoded, exec_withTicks, afterCommand_withTicks]
    | error e => rw [State.runDecoded, State.runDecoded, hw]; rfl

end

/-! ### Runs of an armed machine -/

/-- Armed and RUNNING between steps: the next step takes a tick. -/
def State.playing (s : State) : Prop :=
  s.sched.phase = .running ∧ s.sched.armed = true ∧ s.sched.handlerBusy = false

theorem State.playing.takesTick {s : State} (h : s.playing) : s.takesTick := by
  obtain ⟨hr, ha, hb⟩ := h
  exact ⟨hr, by rw [ha, Bool.true_or], hb⟩

/-- A step of a playing machine leaves it playing, or HALTED. -/
theorem step_of_playing {s : State} (h : s.playing) :
    ∃ t, step s = .next t ∧ (t.playing ∨ t.sched.phase = .halted) := by
  obtain ⟨u, hi⟩ := interpStep_next s.enterHandler
  refine ⟨u.exitHandler, by rw [step_of_takesTick h.takesTick, hi]; rfl, ?_⟩
  obtain ⟨hr, ha, -⟩ := h
  cases stepEffect_of_interpStep hi with
  | overruns a => exact .inr rfl
  | moves | writes | logs => exact .inl ⟨hr, ha, rfl⟩

/-- Another schedule before a step is another schedule after it: the handler draws its own at its entry. -/
theorem step_withTicks {s : State} (h : s.playing) (pending : Bool) (draws : Nat) :
    ∃ pending' draws', step (s.withTicks pending draws) = withTicks pending' draws' (step s) := by
  have ht : (s.withTicks pending draws).takesTick := State.playing.takesTick h
  refine ⟨s.sched.armed && Config.tickDuringHandler draws, draws + 1, ?_⟩
  rw [step_of_takesTick h.takesTick, step_of_takesTick ht, ← leaveHandler_withTicks, ← interpStep_withTicks]
  rfl

theorem forgetTicks_run_withTicks (n : Nat) {s : State} (h : s.playing ∨ s.sched.phase = .halted) (pending : Bool)
    (draws : Nat) : forgetTicks (core.run n (s.withTicks pending draws)) = forgetTicks (core.run n s) := by
  induction n generalizing s pending draws with
  | zero => rfl
  | succ n ih =>
    rcases h with hplay | hhalt
    · obtain ⟨t, hstep, ht⟩ := step_of_playing hplay
      obtain ⟨pending', draws', hstep'⟩ := step_withTicks hplay pending draws
      rw [hstep] at hstep'
      rw [run_of_step hstep, run_of_step hstep']
      exact ih ht pending' draws'
    · have hhalt' : (s.withTicks pending draws).sched.phase = .halted := hhalt
      rw [run_succ, run_succ, step_of_halted hhalt, step_of_halted hhalt']

/-- Settles O34: the second machine is the first with another tick schedule, and each step passes that on. -/
theorem ticksDecideOnlyWhen : Obligations.TicksDecideOnlyWhen := by
  unfold Obligations.TicksDecideOnlyWhen
  intro n s t hr ha hb h
  rw [State.eq_withTicks h]
  exact (forgetTicks_run_withTicks n (.inl ⟨hr, ha, hb⟩) _ _).symm

end Sys2Proof.Machine
end

section
/-! PROOFS. The header accessors of 44_header_parser.md: clock words and their gates, offsets, the song's length. -/
namespace Sys2Proof.Machine

/-! ### Clock words -/

/-- Bits 29:0 as a remainder (44_header_parser.md rule R126). -/
theorem clockBits_toNat (w : Word) : (clockBits w).toNat = w.toNat % 2 ^ 30 :=
  (BitVec.toNat_and w 0x3FFFFFFF).trans (Nat.and_two_pow_sub_one_eq_mod w.toNat 30)

/-- Bit 30 as a digit (44_header_parser.md rule R127). -/
theorem dualBit_iff (w : Word) : dualBit w = true ↔ w.toNat / 2 ^ 30 % 2 = 1 := by
  rw [dualBit, BitVec.getLsbD, Nat.testBit_eq_decide_div_mod_eq, decide_eq_true_iff]

theorem isPresent_iff (p : Params) (h : Header) (f : HdrField) :
    isPresent p h f = true ↔ (gated p h f).toNat % 2 ^ 30 ≠ 0 := by
  rw [isPresent, decide_eq_true_iff, ← clockBits_toNat, ← clockOf]
  exact not_congr ⟨fun e => by rw [e]; rfl, fun e => BitVec.eq_of_toNat_eq e⟩

section
variable {p : Params} {h : Header} {f : HdrField}

/-- From its minimum version on a field reads as itself (44_header_parser.md rule R125). -/
theorem gated_of_le (hv : p.minVersion f ≤ h.version) : gated p h f = h.get f :=
  if_pos (decide_eq_true hv)

/-- Below its minimum version a field reads as 0 (44_header_parser.md rule R125). -/
theorem gated_of_lt (hv : h.version < p.minVersion f) : gated p h f = 0 :=
  if_neg (by rw [fieldValid, decide_eq_true_iff]; exact BitVec.not_le.mpr hv)

end

/-- Settles O45: each accessor reads its bits of the gated word, and the gated word below the minimum version is 0. -/
theorem clockWordFields : Obligations.ClockWordFields := by
  unfold Obligations.ClockWordFields
  intro p h f
  refine ⟨clockBits_toNat _, dualBit_iff _, isPresent_iff p h f, gated_of_le, fun hv => ?_⟩
  rw [isPresent, isDual, clockOf, gated_of_lt hv]
  decide

/-- Settles O47: the two sides of the gate, and the default gates field by field. -/
theorem fieldsAreGatedByVersion : Obligations.FieldsAreGatedByVersion := by
  unfold Obligations.FieldsAreGatedByVersion
  refine ⟨fun p h f => ⟨gated_of_lt, gated_of_le⟩, fun pr => ?_⟩
  have hmin (f : HdrField) : (Params.ofProfile pr).minVersion f = Params.profileM.minVersion f := rfl
  simp only [hmin]
  decide

/-! ### Offsets and length -/

/-- From version 0x0150 on the data starts relative to its field (44_header_parser.md rule R128). -/
theorem startOffsetOf_of_le_version {h : Header} (hv : 0x0150 ≤ h.version) (p : Params) :
    startOffsetOf p h = h.dataRel + 0x34 :=
  if_neg (BitVec.not_lt.mpr hv)

/-- Settles O49: the legacy constant's default below version 0x0150, the relative start from it on. -/
theorem startOffsetByVersion : Obligations.StartOffsetByVersion := by
  unfold Obligations.StartOffsetByVersion
  intro pr h
  refine ⟨fun hv => startOffsetOf_of_version_lt hv _, fun hv => ?_⟩
  rw [startOffsetOf_of_le_version hv]
  exact BitVec.toNat_add h.dataRel 0x34

theorem loopDefinedOf_iff (h : Header) : loopDefinedOf h = true ↔ h.loopRel ≠ 0 :=
  decide_eq_true_iff

/-- Settles O50: sums modulo 2^32, and a loop target of 0x1C exactly where nothing is added to it. -/
theorem loopAndEndOffsets : Obligations.LoopAndEndOffsets := by
  unfold Obligations.LoopAndEndOffsets
  intro h
  refine ⟨BitVec.toNat_add h.loopRel 0x1C, loopDefinedOf_iff h, (loopDefinedOf_iff h).trans (not_congr ?_),
    BitVec.toNat_add h.eofRel 4⟩
  rw [loopOffsetOf]
  constructor <;> intro e <;> bv_omega

/-- Settles O51: division by the default sample rate, rounded down. -/
theorem songLength : Obligations.SongLength := by
  unfold Obligations.SongLength
  intro pr h
  have hdiv : lengthSeconds (Params.ofProfile pr) h = h.sampleCount.toNat / 44100 := rfl
  rw [hdiv]
  refine ⟨rfl, ?_, ?_⟩ <;> omega

end Sys2Proof.Machine
end

section
/-! PROOFS. The boot sequence of 70_reset_and_hazards.md: the outcome of each step that can fail, the state in which
a boot arms the machine field by field, and the statements on power-on, clock setup, boot and the permanent halt. -/
namespace Sys2Proof.Machine

/-- Settles O52: the fields that the spec gives a value. -/
theorem powerOnState : Obligations.PowerOnState := by
  unfold Obligations.PowerOnState
  decide

/-- Settles O56: the fields that a fatal condition writes. -/
theorem fatalEntersThePermanentHalt : Obligations.FatalEntersThePermanentHalt := by
  unfold Obligations.FatalEntersThePermanentHalt
  intro s code info
  rfl

/-- Settles O54: the fields that `clockInit` writes, and the other drivers' records left as they were. -/
theorem clockInitRequestsAndWarns : Obligations.ClockInitRequestsAndWarns := by
  unfold Obligations.ClockInitRequestsAndWarns
  intro s d
  refine ⟨rfl, rfl, ?_, fun e he => ?_, ?_, fun e he => ?_, rfl, rfl, rfl, rfl, rfl, rfl, rfl, rfl, rfl⟩
  · exact (ChipConfigs.get_set ..).trans (if_pos rfl)
  · exact (ChipConfigs.get_set ..).trans (if_neg he)
  · exact (ClockOuts.get_set ..).trans (if_pos rfl)
  · exact (ClockOuts.get_set ..).trans (if_neg he)

/-! ### The steps that can fail -/

theorem step_of_boot {s : State} (h : s.sched.phase = .boot) : step s = .next (boot s) := by
  simp only [step, machineStep, h]

theorem openSource_failed {s : State} {op : IoOp} (hsrc : s.launch.params.profile.source = .file)
    (hres : s.launch.sourceResult = .failed op) : openSource s = .error (s.fatal .e2 (.operation op)) := by
  rw [openSource, hsrc, hres]

theorem openSource_ok {s : State}
    (h : s.launch.params.profile.source = .memory ∨ s.launch.sourceResult = .ready) : openSource s = .ok s := by
  rw [openSource]
  split
  · next hsrc hres => simp [hsrc, hres] at h
  · rfl
  · rfl

theorem boot_of_source_failed {s : State} {op : IoOp} (hsrc : s.launch.params.profile.source = .file)
    (hres : s.launch.sourceResult = .failed op) : boot s = s.fatal .e2 (.operation op) := by
  rw [boot, openSource_failed hsrc hres]

section
variable {s : State} (hsrc : s.launch.params.profile.source = .memory ∨ s.launch.sourceResult = .ready)
include hsrc

theorem boot_of_short_image (hlen : s.launch.streamLength < s.launch.params.minHeaderSize) :
    boot s = s.fatal .e1 (.length s.launch.streamLength) := by
  rw [boot, openSource_ok hsrc]
  simp only [parse, if_pos hlen]

/-- With the header parsed, validation decides between the halt and the last four steps
(44_header_parser.md rule R133). -/
theorem boot_of_image (hlen : s.launch.params.minHeaderSize ≤ s.launch.streamLength) :
    boot s = match dualOffender s.launch.params s.launch.header with
      | some f => State.fatal { s with config := { s.config with hdr := s.launch.header } } .e3 (.field f.offset)
      | none => s.validated.setOffsets.clockInits.initOutputs.arm := by
  rw [boot, openSource_ok hsrc]
  simp only [parse, if_neg (BitVec.not_lt.mpr hlen), validate]
  cases dualOffender s.launch.params s.launch.header <;> rfl

end

/-- The lowest field of the checked set with a dual flag is the one reported (44_header_parser.md rule R133). -/
theorem dualOffender_eq_some {p : Params} {h : Header} {f : HdrField} (hf : f ∈ p.dualChecked)
    (hdual : isDual p h f = true)
    (hlow : ∀ g ∈ p.dualChecked, isDual p h g = true → f.offset ≤ g.offset) : dualOffender p h = some f := by
  have hsorted : HdrField.ascending.Pairwise (fun a b => a.offset < b.offset) := by decide
  have hmem : f ∈ HdrField.ascending := by cases f <;> decide
  obtain ⟨before, after, hsplit⟩ := List.append_of_mem hmem
  rw [hsplit, List.pairwise_append] at hsorted
  rw [dualOffender, List.find?_eq_some_iff_append]
  refine ⟨by simp [hf, hdual], before, after, hsplit, fun g hg => ?_⟩
  have hlt : g.offset < f.offset := hsorted.2.2 g hg f (by simp)
  by_contra hbad
  simp only [Bool.not_eq_true', Bool.not_eq_false, Bool.and_eq_true, decide_eq_true_eq] at hbad
  exact absurd (hlow g hbad.1 hbad.2) (Nat.not_le.mpr hlt)

/-- Settles O55: the source, the length and the validation fail in this order. -/
theorem bootHaltsAtTheFirstFailure : Obligations.BootHaltsAtTheFirstFailure := by
  unfold Obligations.BootHaltsAtTheFirstFailure
  rintro s ⟨hphase, -⟩
  rw [step_of_boot hphase]
  refine ⟨fun op hsrc hres => ?_, fun hsrc hlen => ?_, fun f hsrc hlen hf hdual hlow => ?_⟩
  · rw [boot_of_source_failed hsrc hres]
  · rw [boot_of_short_image hsrc hlen]
  · rw [boot_of_image hsrc hlen, dualOffender_eq_some hf hdual hlow]

/-! ### The clock setup of the wired drivers -/

@[simp] theorem State.clockInits_launch (s : State) : s.clockInits.launch = s.launch :=
  foldl_clockInit_keeps State.launch State.clockInit_launch _ s
@[simp] theorem State.clockInits_interp (s : State) : s.clockInits.interp = s.interp :=
  foldl_clockInit_keeps State.interp State.clockInit_interp _ s
@[simp] theorem State.clockInits_bus (s : State) : s.clockInits.bus = s.bus :=
  foldl_clockInit_keeps State.bus State.clockInit_bus _ s
@[simp] theorem State.clockInits_sched (s : State) : s.clockInits.sched = s.sched :=
  foldl_clockInit_keeps State.sched State.clockInit_sched _ s
@[simp] theorem State.clockInits_hdr (s : State) : s.clockInits.config.hdr = s.config.hdr :=
  foldl_clockInit_keeps (fun t => t.config.hdr) State.clockInit_hdr _ s
@[simp] theorem State.clockInits_dualRouting (s : State) :
    s.clockInits.config.dualRouting = s.config.dualRouting :=
  foldl_clockInit_keeps (fun t => t.config.dualRouting) State.clockInit_dualRouting _ s
@[simp] theorem State.clockInits_traces_bus (s : State) : s.clockInits.traces.bus = s.traces.bus :=
  foldl_clockInit_keeps (fun t => t.traces.bus) State.clockInit_traces_bus _ s
@[simp] theorem State.clockInits_traces_pins (s : State) : s.clockInits.traces.pins = s.traces.pins :=
  foldl_clockInit_keeps (fun t => t.traces.pins) State.clockInit_traces_pins _ s

/-- A driver's chip configuration record as `clockInit` writes it (10_state.md rule R37, log entry 18). -/
def chipRecord (p : Params) (h : Header) (d : Driver) : ChipConfig where
  clockHz := chipHz p h d
  pulseWidthMicros := Config.holdMicros .pulse d
  addressWidth := d.addressWidth

theorem State.clockInit_cfg_get (s : State) (d e : Driver) : (s.clockInit d).config.cfg.get e =
    if e = d then chipRecord s.launch.params s.config.hdr d else s.config.cfg.get e :=
  ChipConfigs.get_set ..

/-- The setup of a list of drivers writes the records of those drivers alone. -/
theorem foldl_clockInit_cfg (l : List Driver) (s : State) (e : Driver) :
    (l.foldl State.clockInit s).config.cfg.get e =
      if e ∈ l then chipRecord s.launch.params s.config.hdr e else s.config.cfg.get e := by
  induction l generalizing s with
  | nil => rw [List.foldl_nil, if_neg List.not_mem_nil]
  | cons d l ih =>
    rw [List.foldl_cons, ih, State.clockInit_cfg_get, State.clockInit_launch, State.clockInit_hdr]
    by_cases hd : e = d
    · subst hd
      simp
    · simp [hd]

theorem mem_driversOf {pr : Profile} {d : Driver} (h : pr.wired d = true) : d ∈ driversOf pr :=
  List.mem_filter.mpr ⟨by cases d <;> decide, h⟩

/-! ### The armed state -/

/-- The state in which a boot that nothing fails leaves the machine (10_state.md section 7). -/
def State.started (s : State) : State := s.validated.setOffsets.clockInits.initOutputs.arm

section
variable (s : State)

theorem State.started_launch : s.started.launch = s.launch := s.validated.setOffsets.clockInits_launch

theorem State.started_hdr : s.started.config.hdr = s.launch.header := s.validated.setOffsets.clockInits_hdr

theorem State.started_dualRouting :
    s.started.config.dualRouting = isDual s.launch.params s.launch.header .clkC8 :=
  s.validated.setOffsets.clockInits_dualRouting

theorem State.started_interp : s.started.interp =
    { cursor := startOffsetOf s.launch.params s.launch.header, delayCounter := 0
      startOffset := startOffsetOf s.launch.params s.launch.header
      loopOffset := loopOffsetOf s.launch.header, endOffset := endOffsetOf s.launch.header
      loopDefined := loopDefinedOf s.launch.header } :=
  congrArg (fun i : Interp => { i with cursor := i.startOffset, delayCounter := 0 })
    s.validated.setOffsets.clockInits_interp

theorem State.started_sched : s.started.sched =
    { s.sched with phase := .running, armed := true, tickHz := s.launch.params.tickHz } := by
  simp [State.started, State.arm, State.initOutputs, State.setOffsets, State.validated]

theorem State.started_bus : s.started.bus = { s.bus with stb := Strobes.off, activity := false } :=
  congrArg (fun b : Bus => { b with stb := Strobes.off, activity := false }) s.validated.setOffsets.clockInits_bus

theorem State.started_traces_bus : s.started.traces.bus = s.traces.bus :=
  s.validated.setOffsets.clockInits_traces_bus

theorem State.started_traces_pins : s.started.traces.pins = s.traces.pins :=
  s.validated.setOffsets.clockInits_traces_pins

theorem State.started_drivers : s.started.traces.clock.map ClockRecord.driver =
    s.traces.clock.map ClockRecord.driver ++ driversOf s.launch.params.profile :=
  foldl_clockInit_drivers _ s.validated.setOffsets

theorem State.started_clock_grows : s.traces.clock <+: s.started.traces.clock :=
  foldl_clockInit_clock_prefix _ s.validated.setOffsets

/-- Boot appends calibration warnings alone (60_exceptions.md rule R146). -/
theorem State.started_diag :
    ∃ w : List DiagRecord, s.started.traces.diag = s.traces.diag ++ w ∧ ∀ r ∈ w, r.code = .e4 :=
  foldl_clockInit_diag _ s.validated.setOffsets

theorem State.started_cfg {d : Driver} (h : s.launch.params.profile.wired d = true) :
    s.started.config.cfg.get d = chipRecord s.launch.params s.launch.header d :=
  (foldl_clockInit_cfg _ s.validated.setOffsets d).trans (if_pos (mem_driversOf h))

end

theorem Launch.header_get (l : Launch) (f : HdrField) : l.header.get f = l.headerField f := by
  cases f <;> rfl

/-- A header field is the little-endian word at its offset, where the header buffer holds it (44_header_parser.md
rule R124). -/
theorem Launch.headerField_toNat (l : Launch) (f : HdrField) : (l.headerField f).toNat =
    if f.offset + 4 ≤ min l.streamLength.toNat l.params.hdrBufLen then
      (l.image.read f.offset).toNat + 2 ^ 8 * (l.image.read (f.offset + 1)).toNat +
        2 ^ 16 * (l.image.read (f.offset + 2)).toNat + 2 ^ 24 * (l.image.read (f.offset + 3)).toNat
    else 0 := by
  rw [Launch.headerField, Launch.headerBytes]
  split
  · exact le32_toNat ..
  · rfl

/-- Settles O53: with the source ready, the image long enough and no offender, boot runs its last four steps. -/
theorem bootArmsTheMachineAtTheStart : Obligations.BootArmsTheMachineAtTheStart := by
  unfold Obligations.BootArmsTheMachineAtTheStart
  rintro s ⟨hphase, hcode, -, hpending, hbusy, -, -, hbus, -, -, hclock⟩ hsrc hlen hdual
  have hboot : boot s = s.started := by rw [boot_of_image hsrc hlen, hdual, State.started]
  refine ⟨s.started, by rw [step_of_boot hphase, hboot], s.started_hdr, fun f => ?_, ?_⟩
  · rw [State.started_hdr, Launch.header_get, Launch.headerField_toNat]
  rw [State.started_hdr, State.started_interp, State.started_dualRouting, State.started_sched, State.started_bus,
    State.started_traces_bus, State.started_drivers, hclock]
  exact ⟨rfl, rfl, rfl, hcode, rfl, hpending, hbusy, rfl, rfl, rfl, rfl, rfl, hbus, rfl,
    fun d hd => s.started_cfg hd, s.started_launch⟩

end Sys2Proof.Machine
end

section
/-! PROOFS. What every step keeps: frames and traces along one interpreter step, halts, and the invariant of
the machine's steps with one lemma for each way in which a step changes the state. -/
namespace Sys2Proof.Machine

/-! ### Frames and traces -/

/-- What `step()` never writes (10_state.md rules R22, R28, R35). -/
theorem StepEffect.frame {s t : State} (h : StepEffect s t) :
    t.launch = s.launch ∧ t.config = s.config ∧ t.interp.startOffset = s.interp.startOffset ∧
    t.interp.loopOffset = s.interp.loopOffset ∧ t.interp.endOffset = s.interp.endOffset ∧
    t.interp.loopDefined = s.interp.loopDefined ∧ t.traces.clock = s.traces.clock ∧
    t.sched.tickHz = s.sched.tickHz := by
  cases h <;> exact ⟨rfl, rfl, rfl, rfl, rfl, rfl, rfl, rfl⟩

theorem StepEffect.traces_grow {s t : State} (h : StepEffect s t) :
    s.traces.bus <+: t.traces.bus ∧ s.traces.diag <+: t.traces.diag := by
  cases h with
  | moves c d => exact ⟨List.prefix_rfl, List.prefix_rfl⟩
  | writes c target sel reg val =>
    refine ⟨?_, List.prefix_rfl⟩
    rw [State.toggleActivity_traces, State.twoPhase_traces_bus]
    exact List.prefix_append ..
  | logs c info => exact ⟨List.prefix_rfl, List.prefix_append ..⟩
  | overruns a => exact ⟨List.prefix_rfl, List.prefix_append ..⟩

/-- From a RUNNING state only a read outside the image leads to a halt. -/
theorem StepEffect.eq_overrun {s t : State} (h : StepEffect s t) (hr : s.sched.phase = .running)
    (ht : t.sched.phase = .halted) : ∃ a, t = s.overrun a := by
  cases h with
  | overruns a => exact ⟨a, rfl⟩
  | moves | writes | logs => cases hr.symm.trans ht

theorem boot_launch (s : State) : (boot s).launch = s.launch := by
  rcases boot_cases s with ⟨code, info, hdr, -, e⟩ | ⟨-, e⟩ <;> rw [e]
  · rfl
  · exact s.started_launch

/-- Settles O37: boot writes no launch input, an interpreter step no boot-written register either. -/
theorem bootWrittenStateIsImmutable : Obligations.BootWrittenStateIsImmutable := by
  unfold Obligations.BootWrittenStateIsImmutable
  intro s t h
  rcases stepEffect_of_step h with ⟨hb, rfl⟩ | ⟨-, u, heff, rfl⟩ | ⟨-, -, rfl⟩
  · exact ⟨boot_launch s, fetch?_congr (boot_launch s), fun hr => by cases hb.symm.trans hr⟩
  · obtain ⟨hlaunch, hframe⟩ := heff.frame
    exact ⟨hlaunch, fetch?_congr (s := s) (t := u.exitHandler) hlaunch, fun _ => hframe⟩
  · exact ⟨rfl, fun _ => rfl, fun _ => ⟨rfl, rfl, rfl, rfl, rfl, rfl, rfl⟩⟩

/-- Settles O38: boot and interpreter steps append to the traces alone. -/
theorem tracesOnlyGrow : Obligations.TracesOnlyGrow := by
  unfold Obligations.TracesOnlyGrow
  intro s t h
  rcases stepEffect_of_step h with ⟨-, rfl⟩ | ⟨-, u, heff, rfl⟩ | ⟨-, -, rfl⟩
  · rcases boot_cases s with ⟨code, info, hdr, -, e⟩ | ⟨-, e⟩ <;> rw [e]
    · exact ⟨List.prefix_rfl, List.prefix_append .., List.prefix_rfl⟩
    · obtain ⟨w, hdiag, -⟩ := s.started_diag
      exact ⟨s.started_traces_bus ▸ List.prefix_rfl, ⟨w, hdiag.symm⟩, s.started_clock_grows⟩
  · obtain ⟨hbus, hdiag⟩ := heff.traces_grow
    obtain ⟨-, -, -, -, -, -, hclock, -⟩ := heff.frame
    exact ⟨hbus, hdiag, hclock ▸ List.prefix_rfl⟩
  · exact ⟨List.prefix_rfl, List.prefix_rfl, List.prefix_rfl⟩

/-- Settles O58: a boot that halts and a read outside the image append their own record and disarm the tick. -/
theorem aHaltIsPrecise : Obligations.AHaltIsPrecise := by
  unfold Obligations.AHaltIsPrecise
  intro s t h ht
  rcases stepEffect_of_step h with ⟨-, rfl⟩ | ⟨htick, u, heff, rfl⟩ | ⟨hr, -, rfl⟩
  · rcases boot_cases s with ⟨code, info, hdr, hfatal, e⟩ | ⟨-, e⟩ <;> rw [e] at ht ⊢
    · exact ⟨rfl, rfl, rfl, rfl, rfl, ⟨code, info⟩, rfl, rfl, hfatal⟩
    · cases ht
  · obtain ⟨a, rfl⟩ := heff.eq_overrun htick.1 ht
    exact ⟨rfl, rfl, rfl, rfl, rfl, ⟨.e6, .offset a⟩, rfl, rfl, rfl⟩
  · cases hr.symm.trans ht

/-! ### The invariant -/

/-- Settles O35: each part of the invariant evaluates at power-on. -/
theorem resetMeetsTheInvariant : Obligations.ResetMeetsTheInvariant := by
  unfold Obligations.ResetMeetsTheInvariant
  exact ⟨by decide, by decide, by decide, by decide, by decide, by decide, by decide⟩

/-- The bus after one more driver write (10_state.md rule R34, 42_chip_write.md rules R91, R92). -/
theorem busOk_of_write {s : State} (h : s.busOk) (target : Target) (sel : SelPair) (reg val : Byte) :
    (s.twoPhase target sel reg val).toggleActivity.busOk := by
  obtain ⟨hstb, -, heven, hact, hpins⟩ := h
  have hparity : (!decide (s.traces.bus.length % 4 = 2)) = decide ((s.traces.bus.length + 2) % 4 = 2) := by
    rw [← decide_not, decide_eq_decide]
    omega
  refine ⟨?_, fun r hr => ?_, ?_, ?_, ?_⟩
  · rw [State.toggleActivity_bus_stb, State.twoPhase_bus_stb, hstb, Strobes.off_pulse, Strobes.off_pulse]
  · rw [State.toggleActivity_traces, State.twoPhase_traces_bus, List.append_cons, List.getLast?_append] at hr
    cases hr
    exact ⟨rfl, rfl⟩
  · rw [State.toggleActivity_traces, State.twoPhase_traces_bus, List.length_append]
    exact (Nat.add_mod_right _ 2).trans heven
  · rw [State.toggleActivity_bus_activity, State.twoPhase_bus_activity, hact, hparity,
      State.toggleActivity_traces, State.twoPhase_traces_bus, List.length_append]
    rfl
  · rw [State.toggleActivity_traces, State.twoPhase_traces_pins, State.twoPhase_traces_bus, hpins]
    simp

theorem wiredOnly_of_write {s : State} (h : s.wiredOnly) {target : Target} (sel : SelPair) (reg val : Byte)
    (hw : s.launch.params.profile.wired target.family = true) :
    (s.twoPhase target sel reg val).toggleActivity.wiredOnly := by
  intro r hr
  rw [State.toggleActivity_traces, State.twoPhase_traces_bus, List.mem_append] at hr
  rcases hr with hr | hr
  · exact h r hr
  · simp only [List.mem_cons, List.not_mem_nil, or_false] at hr
    rcases hr with rfl | rfl <;> exact hw

theorem fatalRecords_append_recoverable {l w : List DiagRecord} (hw : ∀ r ∈ w, r.code.fatal = false) :
    fatalRecords (l ++ w) = fatalRecords l := by
  have hnone : w.filter (fun r => r.code.fatal) = [] := List.filter_eq_nil_iff.mpr fun r hr => by simp [hw r hr]
  rw [fatalRecords, List.filter_append, hnone, List.append_nil, fatalRecords]

/-- A fatal condition in a machine not yet HALTED (60_exceptions.md rules R150, R161). -/
theorem State.Inv.fatal {s : State} (h : s.Inv) (hs : s.sched.phase ≠ .halted) {code : ErrCode}
    (hcode : code.fatal = true) (info : DiagInfo) : (s.fatal code info).Inv where
  image := h.image
  sched := by
    obtain ⟨-, -, -, hbusy, -⟩ := h.sched
    exact ⟨rfl, fun e he => by cases he; exact hcode, rfl, hbusy, fun hb => by cases hb⟩
  bus := h.bus
  wired := h.wired
  boot hb := by cases hb
  running hr := by cases hr
  oneFatal := by
    have hone := h.oneFatal
    rw [if_neg hs] at hone
    rw [State.fatal_traces_diag, fatalRecords, List.filter_append, List.length_append]
    simp only [fatalRecords] at hone
    simp [hone, hcode]

/-- Before boot has run, any header registers meet the invariant. -/
theorem State.Inv.withHdr {s : State} (h : s.Inv) (hb : s.sched.phase = .boot) (hdr : Header) :
    State.Inv { s with config := { s.config with hdr := hdr } } where
  image := h.image
  sched := h.sched
  bus := h.bus
  wired := h.wired
  boot := h.boot
  running hr := by cases hb.symm.trans hr
  oneFatal := h.oneFatal

/-- A boot that nothing fails (44_header_parser.md rules R138, R144). -/
theorem State.Inv.started {s : State} (h : s.Inv) (hb : s.sched.phase = .boot)
    (hdual : dualOffender s.launch.params s.launch.header = none) : s.started.Inv := by
  obtain ⟨hbus, hpins, hdiag, hclock⟩ := h.boot hb
  obtain ⟨-, hcode, hhalt, hbusy, -⟩ := h.sched
  have hbus' : s.started.traces.bus = [] := s.started_traces_bus.trans hbus
  refine ⟨?_, ?_, ?_, ?_, fun hr => ?_, fun _ => ?_, ?_⟩
  · rw [State.started_launch]; exact h.image
  · rw [State.started_sched]
    exact ⟨rfl, hcode, by rw [hhalt, hb]; rfl, hbusy, fun hr => by cases hr⟩
  · rw [State.busOk, hbus', State.started_bus, State.started_traces_pins, hpins]
    exact ⟨rfl, fun r hr => (by cases hr), rfl, rfl, rfl⟩
  · rw [State.wiredOnly, hbus']
    exact fun r hr => absurd hr List.not_mem_nil
  · cases hr
  · rw [State.bootDone, State.started_hdr, State.started_launch, State.started_interp, State.started_dualRouting,
      State.started_drivers, hclock]
    exact ⟨rfl, rfl, rfl, rfl, rfl, rfl, hdual, rfl⟩
  · obtain ⟨w, hw, hwarn⟩ := s.started_diag
    rw [hw, hdiag, fatalRecords_append_recoverable fun r hr => by rw [hwarn r hr]; rfl]
    rfl

theorem State.Inv.boot_next {s : State} (h : s.Inv) (hb : s.sched.phase = .boot) : (Machine.boot s).Inv := by
  rcases boot_cases s with ⟨code, info, hdr, hcode, e⟩ | ⟨hdual, e⟩ <;> rw [e]
  · exact (h.withHdr hb hdr).fatal (by show s.sched.phase ≠ .halted; rw [hb]; decide) hcode info
  · exact h.started hb hdual

/-- The handler's entry and exit write the tick's bits alone. -/
theorem State.Inv.handler {s : State} (h : s.Inv) (hr : s.sched.phase = .running) :
    s.enterHandler.exitHandler.Inv where
  image := h.image
  sched := by
    obtain ⟨harmed, hcode, hhalt, -, -⟩ := h.sched
    exact ⟨harmed, hcode, hhalt, rfl, fun hb => by cases hr.symm.trans hb⟩
  bus := h.bus
  wired := h.wired
  boot := h.boot
  running := h.running
  oneFatal := h.oneFatal

/-- An interpreter step's effect between steps. -/
theorem State.Inv.stepEffect {s t : State} (h : s.Inv) (hr : s.sched.phase = .running) (he : StepEffect s t) :
    t.Inv := by
  have hboot : s.sched.phase ≠ .boot := by rw [hr]; decide
  cases he with
  | moves c d => exact ⟨h.image, h.sched, h.bus, h.wired, h.boot, h.running, h.oneFatal⟩
  | writes c target sel reg val hwired =>
    exact ⟨h.image, h.sched, busOk_of_write (s := s.setCursor c) h.bus target sel reg val,
      wiredOnly_of_write (s := s.setCursor c) h.wired sel reg val hwired, fun hb => absurd hb hboot, h.running,
      h.oneFatal⟩
  | logs c info =>
    refine ⟨h.image, h.sched, h.bus, h.wired, fun hb => absurd hb hboot, h.running, ?_⟩
    rw [State.emit_traces_diag, fatalRecords_append_recoverable fun r hr => by rw [List.mem_singleton.mp hr]; rfl]
    exact h.oneFatal
  | overruns a =>
    have hmoved : (s.setCursor a).Inv := ⟨h.image, h.sched, h.bus, h.wired, h.boot, h.running, h.oneFatal⟩
    exact hmoved.fatal (by rw [State.setCursor_sched, hr]; decide) rfl _

/-- The handler's exit writes no field that an interpreter step reads or writes. -/
theorem StepEffect.exitHandler {s t : State} (h : StepEffect s t) : StepEffect s.exitHandler t.exitHandler := by
  cases h with
  | moves c d => exact .moves (s := s.exitHandler) c d
  | writes c target sel reg val hwired => exact .writes (s := s.exitHandler) c target sel reg val hwired
  | logs c info => exact .logs (s := s.exitHandler) c info
  | overruns a => exact .overruns (s := s.exitHandler) a

/-- Settles O36: boot establishes the RUNNING part or halts, and a taken tick is an interpreter step's effect on a
state that differs in the tick's bits alone; an armed machine never idles. -/
theorem stepKeepsTheInvariant : Obligations.StepKeepsTheInvariant := by
  unfold Obligations.StepKeepsTheInvariant
  intro s t h hstep
  rcases stepEffect_of_step hstep with ⟨hb, rfl⟩ | ⟨⟨hr, -, -⟩, u, heff, rfl⟩ | ⟨hr, hidle, rfl⟩
  · exact h.boot_next hb
  · exact (h.handler hr).stepEffect hr heff.exitHandler
  · obtain ⟨harmed, -, -, hbusy, -⟩ := h.sched
    have hplay : s.playing := ⟨hr, harmed.trans (decide_eq_true hr), hbusy⟩
    exact absurd hplay.takesTick hidle

end Sys2Proof.Machine
end
